-- ==== Sys2Proof/Word.lean ====
section
/-! DEFINITION. The widths of the machine (spec/00_scope.md R6): the control word is 32 bits, the slave address
7 bits, every byte on the wire 8 bits. All quantities are unsigned (R7). -/

namespace Sys2Proof

/-- A 32-bit word: the control word, the shadow, a request word, a response word. R6, R42, R47. -/
abbrev Word := BitVec 32

/-- A byte: command, data, address byte, accumulator. R6. -/
abbrev Byte := BitVec 8

/-- A 7-bit slave address; all 128 values are treated alike. R6, R50. -/
abbrev SlaveAddr := BitVec 7

end Sys2Proof
end

