-- ==== Sys2Proof/Config.lean ====
section
/-! DEFINITION. What is fixed for one instance of the block (spec/00_scope.md R5), and the free values: what the
spec leaves to the platform and to the environment. -/

namespace Sys2Proof

/-- One register event of the block's trace (spec/10_state.md R23). A `write` at the control offset stands for the
write together with the settle wait that follows it (R7, R121); the model has no time. -/
inductive Event where
  /-- `MemWrite(off, 4, v)`. -/
  | write (off : Int) (v : Word)
  /-- `MemRead(off, 4)` that returned `w`. -/
  | read (off : Int) (w : Word)
deriving DecidableEq, Repr

/-- The nine parameters of R5, before their constraints. Only the two defaults are the source's; it gives no bit
position, no offset and no value (spec/91_not_in_source.md N2, N3). -/
structure RawParams where
  /-- `CLOCK_BIT`. -/
  clockBit : Fin 32
  /-- `DATA_BIT`. -/
  dataBit : Fin 32
  /-- `DATAIN_BIT`; it may equal either output position (spec/92_eei_decisions.md D8). -/
  dataInBit : Fin 32
  /-- `CTRL_OFFSET`, an integer. -/
  ctrlOffset : Int
  /-- `INIT_OFFSET`, an integer. -/
  initOffset : Int
  /-- `INIT_VALUE`. -/
  initValue : Word
  /-- `SHADOW_INIT`; its bits other than the two line bits are the device's enable flags. -/
  shadowInit : Word
  /-- `SETTLE_US`, in microseconds. R5 says a positive number and not that it is whole: DESIGN CHOICE, a whole number.
  Log entry 19. -/
  settleUs : Nat := 10
  /-- `ACK_SAMPLE`: the sampled bit that ACKCHECK reports as acknowledge. -/
  ackSample : Bool := true
deriving DecidableEq, Repr, Inhabited

/-- The parameters together with the constraints R5 puts on them. -/
structure Params extends RawParams where
  bits_differ : dataBit ≠ clockBit
  offsets_differ : initOffset ≠ ctrlOffset
  clock_on : shadowInit.getLsbD clockBit = true
  data_on : shadowInit.getLsbD dataBit = true
  settle_pos : 0 < settleUs
deriving DecidableEq, Repr

/-- Moves a parameter that breaks a constraint of R5 to one that keeps it, and leaves parameters that keep all of
them alone, so that every well-formed `Params` is `fit` of something. -/
def RawParams.fit (r : RawParams) : Params :=
  let d := if r.dataBit = r.clockBit then r.clockBit + 1 else r.dataBit
  { clockBit := r.clockBit
    dataBit := d
    dataInBit := r.dataInBit
    ctrlOffset := r.ctrlOffset
    initOffset := if r.initOffset = r.ctrlOffset then r.ctrlOffset + 1 else r.initOffset
    initValue := r.initValue
    shadowInit := r.shadowInit ||| BitVec.twoPow 32 r.clockBit ||| BitVec.twoPow 32 d
    settleUs := if r.settleUs = 0 then 1 else r.settleUs
    ackSample := r.ackSample
    bits_differ := by
      show (if r.dataBit = r.clockBit then r.clockBit + 1 else r.dataBit) ≠ r.clockBit
      split
      · generalize r.clockBit = c
        revert c
        decide
      · assumption
    offsets_differ := by
      show (if r.initOffset = r.ctrlOffset then r.ctrlOffset + 1 else r.initOffset) ≠ r.ctrlOffset
      split <;> omega
    clock_on := by simp
    data_on := by simp
    settle_pos := by
      show 0 < (if r.settleUs = 0 then 1 else r.settleUs)
      split <;> omega }

/-- The parameters of the instance that `State.reset` starts. A free value: R5 leaves every one of them to the
platform. Log entries 1 and 2. -/
opaque Config.rawParams : RawParams

/-- The instance's parameters, with R5's constraints. Log entry 2. -/
def Config.params : Params := Config.rawParams.fit

/-- The word a register read returns when no answer is scripted: a free value of the whole history of events, since
"no rule of this spec constrains it" (spec/20_memory.md R31). Each read lengthens the history, so each draws anew.
Log entry 3. -/
opaque Config.freeRead : List Event → Word

end Sys2Proof
end

