-- ==== Sys2Proof/Syntax.lean ====
section
/-! DEFINITION. The seventeen operations of spec/opcode_table.json: the five shapes of an `access` request
(spec/30_encoding.md R45) and the twelve inner operations (R52). -/

namespace Sys2Proof

/-- The direction of a transfer. R43. -/
inductive Dir where
  | write
  | read
deriving DecidableEq, Repr

/-- The operations. A request carries all the fields of its word, the ignored ones too (R46), because acceptance
latches them all (spec/42_smbus_adapter.md R78); an inner operation carries only the operand it uses (R52). -/
inductive Instr where
  /-- `WRB addr, cmd`: write byte. R91. -/
  | wrb (addr : SlaveAddr) (cmd data : Byte)
  /-- `RDB addr`: read byte. R92. -/
  | rdb (addr : SlaveAddr) (cmd data : Byte)
  /-- `WRBD addr, cmd, data`: write byte data. R93. -/
  | wrbd (addr : SlaveAddr) (cmd data : Byte)
  /-- `RDBD addr`: read byte data. R94. -/
  | rdbd (addr : SlaveAddr) (cmd data : Byte)
  /-- Every request whose size is neither BYTE nor BYTE_DATA. R95. -/
  | unsup (size : Byte) (dir : Dir) (addr : SlaveAddr) (cmd data : Byte)
  /-- `setData(bit)`. R58. -/
  | setdata (b : Bool)
  /-- `clockOn()`. R59. -/
  | clockon
  /-- `clockOff()`. R60. -/
  | clockoff
  /-- `commit()`. R61. -/
  | commit
  /-- `readDataLine()`. R62. -/
  | readdataline
  /-- `start()`. R66. -/
  | start
  /-- `stop()`. R68. -/
  | stop
  /-- `readBit()`, READDATALINE under the engine's name. R69, R55. -/
  | readbit
  /-- `ackCheck()`. R70. -/
  | ackcheck
  /-- `sendByte(value)`. R71. -/
  | sendbyte (v : Byte)
  /-- `readByte()`. R73. -/
  | readbyte
  /-- `busBusy()`. R75. -/
  | busbusy
deriving DecidableEq, Repr

/-- The two supported sizes. R44. -/
def sizeByte : Byte := 1

/-- BYTE_DATA. R44. -/
def sizeByteData : Byte := 2

end Sys2Proof
end

