-- ==== Sys2Proof/WellFormed.lean ====
section
/-! DEFINITION. When an operation is one some word stands for (spec/30_encoding.md R45). The widths of the fields are
in their types; what is left to check is that `UNSUP` does not carry a supported size. -/

namespace Sys2Proof

/-- The one check: an `UNSUP` request's size is neither BYTE nor BYTE_DATA. R44, R45. -/
def Instr.wf : Instr → Bool
  | .unsup size _ _ _ _ => size != sizeByte && size != sizeByteData
  | .wrb _ _ _ | .rdb _ _ _ | .wrbd _ _ _ | .rdbd _ _ _ => true
  | .setdata _ | .clockon | .clockoff | .commit | .readdataline | .start | .stop | .readbit | .ackcheck
  | .sendbyte _ | .readbyte | .busbusy => true

end Sys2Proof
end

