-- ==== Sys2Proof/Decode.lean ====
section
/-! DEFINITION. Words to operations and back (spec/30_encoding.md R42 to R54). The block has no byte order to state:
a word crosses its boundary as a number (spec/20_memory.md R33). Decoding is total: every request word stands for an
operation (R42, R50), and a micro-operation word with an unassigned number is rejected by name (R53). -/

namespace Sys2Proof

/-- The operation's row in spec/opcode_table.json. -/
def Instr.mnemonic : Instr → String
  | .wrb _ _ _ => "WRB"
  | .rdb _ _ _ => "RDB"
  | .wrbd _ _ _ => "WRBD"
  | .rdbd _ _ _ => "RDBD"
  | .unsup _ _ _ _ _ => "UNSUP"
  | .setdata _ => "SETDATA"
  | .clockon => "CLOCKON"
  | .clockoff => "CLOCKOFF"
  | .commit => "COMMIT"
  | .readdataline => "READDATALINE"
  | .start => "START"
  | .stop => "STOP"
  | .readbit => "READBIT"
  | .ackcheck => "ACKCHECK"
  | .sendbyte _ => "SENDBYTE"
  | .readbyte => "READBYTE"
  | .busbusy => "BUSBUSY"

/-- Is the operation one of the five request shapes, the only ones a host can issue? R45, R52. -/
def Instr.isRequest : Instr → Bool
  | .wrb _ _ _ | .rdb _ _ _ | .wrbd _ _ _ | .rdbd _ _ _ | .unsup _ _ _ _ _ => true
  | .setdata _ | .clockon | .clockoff | .commit | .readdataline | .start | .stop | .readbit | .ackcheck
  | .sendbyte _ | .readbyte | .busbusy => false

/-- A word at the operation port: a 32-bit request word (R42) or a 12-bit micro-operation word (R52). Log entry 5. -/
inductive PortWord where
  | req (w : Word)
  | prim (w : BitVec 12)
deriving DecidableEq, Repr

/-- Why a port word is no operation. -/
inductive DecodeError where
  /-- `OP` 12 to 15, which name nothing. R53. -/
  | unassignedOp (op : BitVec 4)
deriving DecidableEq, Repr

/-- The direction's code, the same in the request word and in the address byte. R43. -/
def Dir.bit : Dir → BitVec 1
  | .write => 0
  | .read => 1

/-- The direction a code stands for. R43. -/
def Dir.ofBit (b : BitVec 1) : Dir := if b = 1 then .read else .write

/-- `REQ[31:24]`. R42. -/
def reqSize (w : Word) : Byte := w.extractLsb' 24 8

/-- `REQ[23]`. R42. -/
def reqDir (w : Word) : Dir := Dir.ofBit (w.extractLsb' 23 1)

/-- `REQ[22:16]`. R42. -/
def reqAddr (w : Word) : SlaveAddr := w.extractLsb' 16 7

/-- `REQ[15:8]`. R42. -/
def reqCommand (w : Word) : Byte := w.extractLsb' 8 8

/-- `REQ[7:0]`. R42. -/
def reqData (w : Word) : Byte := w.extractLsb' 0 8

/-- `PRIM[11:8]`. R52. -/
def primOp (w : BitVec 12) : BitVec 4 := w.extractLsb' 8 4

/-- `PRIM[7:0]`. R52. -/
def primArg (w : BitVec 12) : Byte := w.extractLsb' 0 8

/-- The operation a request word selects: a test of `SIZE`, then of `DIR`; anything else is `UNSUP`. R45. -/
def decodeReq (w : Word) : Instr :=
  if reqSize w = sizeByte then
    match reqDir w with
    | .write => .wrb (reqAddr w) (reqCommand w) (reqData w)
    | .read => .rdb (reqAddr w) (reqCommand w) (reqData w)
  else if reqSize w = sizeByteData then
    match reqDir w with
    | .write => .wrbd (reqAddr w) (reqCommand w) (reqData w)
    | .read => .rdbd (reqAddr w) (reqCommand w) (reqData w)
  else .unsup (reqSize w) (reqDir w) (reqAddr w) (reqCommand w) (reqData w)

/-- The operation a micro-operation word names. R52, R53. -/
def decodePrim (w : BitVec 12) : Except DecodeError Instr :=
  match (primOp w).toNat with
  | 0 => .ok (.setdata ((primArg w).getLsbD 0))
  | 1 => .ok .clockon
  | 2 => .ok .clockoff
  | 3 => .ok .commit
  | 4 => .ok .readdataline
  | 5 => .ok .start
  | 6 => .ok .stop
  | 7 => .ok .readbit
  | 8 => .ok .ackcheck
  | 9 => .ok (.sendbyte (primArg w))
  | 10 => .ok .readbyte
  | 11 => .ok .busbusy
  | _ => .error (.unassignedOp (primOp w))

/-- The decoder. -/
def decode : PortWord → Except DecodeError Instr
  | .req w => .ok (decodeReq w)
  | .prim w => decodePrim w

/-- `REQ = SIZE ++ DIR ++ ADDR ++ COMMAND ++ DATA`. R42. -/
def packReq (size : Byte) (dir : Dir) (addr : SlaveAddr) (cmd data : Byte) : Word :=
  size ++ dir.bit ++ addr ++ cmd ++ data

/-- `PRIM = OP ++ ARG`. R52. -/
def packPrim (op : BitVec 4) (arg : Byte) : BitVec 12 := op ++ arg

/-- The encoder; bits an inner operation ignores are written 0. R45, R52. -/
def encode : Instr → PortWord
  | .wrb addr cmd data => .req (packReq sizeByte .write addr cmd data)
  | .rdb addr cmd data => .req (packReq sizeByte .read addr cmd data)
  | .wrbd addr cmd data => .req (packReq sizeByteData .write addr cmd data)
  | .rdbd addr cmd data => .req (packReq sizeByteData .read addr cmd data)
  | .unsup size dir addr cmd data => .req (packReq size dir addr cmd data)
  | .setdata b => .prim (packPrim 0 ((BitVec.ofBool b).setWidth 8))
  | .clockon => .prim (packPrim 1 0)
  | .clockoff => .prim (packPrim 2 0)
  | .commit => .prim (packPrim 3 0)
  | .readdataline => .prim (packPrim 4 0)
  | .start => .prim (packPrim 5 0)
  | .stop => .prim (packPrim 6 0)
  | .readbit => .prim (packPrim 7 0)
  | .ackcheck => .prim (packPrim 8 0)
  | .sendbyte v => .prim (packPrim 9 v)
  | .readbyte => .prim (packPrim 10 0)
  | .busbusy => .prim (packPrim 11 0)

/-- The port word made of `nbits` bits of a number. A 12-bit word may be given as two whole bytes, zeros above it. -/
def PortWord.ofBits (nbits w : Nat) : Option PortWord :=
  if nbits = 32 ∧ w < 2 ^ 32 then some (.req (BitVec.ofNat 32 w))
  else if (nbits = 12 ∨ nbits = 16) ∧ w < 2 ^ 12 then some (.prim (BitVec.ofNat 12 w))
  else none

/-- The operation the decoder reads from bits numbered as spec/opcode_table.json numbers them; none for an unassigned
micro-operation and for bits that are no word of the port. -/
def decodeTableWord (nbits w : Nat) : Option Instr :=
  match PortWord.ofBits nbits w with
  | some p => (decode p).toOption
  | none => none

/-- A row of the opcode table's request rows: a word is the row's when `word &&& mask = pattern`. R45. -/
structure ReqRow where
  mnemonic : String
  pattern : Word
  mask : Word
deriving DecidableEq, Repr

/-- The request rows in the table's order; the last takes every word no earlier row took. R45. -/
def reqRows : List ReqRow :=
  [ ⟨"WRB", 0x01000000, 0xFF800000⟩, ⟨"RDB", 0x01800000, 0xFF800000⟩,
    ⟨"WRBD", 0x02000000, 0xFF800000⟩, ⟨"RDBD", 0x02800000, 0xFF800000⟩,
    ⟨"UNSUP", 0x00000000, 0x00000000⟩ ]

/-- The eight exact patterns of the UNSUP row, which cover its words without overlap. R45. -/
def unsupRows : List ReqRow :=
  [ ⟨"UNSUP", 0x00000000, 0xFF000000⟩, ⟨"UNSUP", 0x03000000, 0xFF000000⟩,
    ⟨"UNSUP", 0x04000000, 0xFC000000⟩, ⟨"UNSUP", 0x08000000, 0xF8000000⟩,
    ⟨"UNSUP", 0x10000000, 0xF0000000⟩, ⟨"UNSUP", 0x20000000, 0xE0000000⟩,
    ⟨"UNSUP", 0x40000000, 0xC0000000⟩, ⟨"UNSUP", 0x80000000, 0x80000000⟩ ]

/-- Does the word match the row? -/
def ReqRow.hits (r : ReqRow) (w : Word) : Bool := w &&& r.mask == r.pattern

/-- The first row a word matches, as the table's priority says. -/
def firstRow (w : Word) : Option String := (reqRows.find? (·.hits w)).map (·.mnemonic)

/-- A line of the assembler. R54. -/
inductive Asm where
  | wrb (addr : SlaveAddr) (cmd : Byte)
  | rdb (addr : SlaveAddr)
  | wrbd (addr : SlaveAddr) (cmd data : Byte)
  | rdbd (addr : SlaveAddr)
  | unsup (word : Word)
deriving DecidableEq, Repr

/-- The request word of a line; the assembler writes 0 into every omitted field. R54. -/
def assemble : Asm → Word
  | .wrb addr cmd => 0x01000000 ||| addr.setWidth 32 <<< 16 ||| cmd.setWidth 32 <<< 8
  | .rdb addr => 0x01800000 ||| addr.setWidth 32 <<< 16
  | .wrbd addr cmd data =>
      0x02000000 ||| addr.setWidth 32 <<< 16 ||| cmd.setWidth 32 <<< 8 ||| data.setWidth 32
  | .rdbd addr => 0x02800000 ||| addr.setWidth 32 <<< 16
  | .unsup word => word

end Sys2Proof
end

