-- ==== Sys2Proof/Machine/State.lean ====
section
/-! DEFINITION. The state of one block (spec/10_state.md), the registers of its window, and what stands at its two
boundaries. -/

namespace Sys2Proof.Machine

/-- The one slot of a byte's frame the sequencer is in: a data bit, or the acknowledge. R19. -/
inductive Slot where
  | bit (i : Fin 8)
  | ack
deriving DecidableEq, Repr

/-- Which byte is being sent. R19. -/
inductive TxByte where
  | addr
  | cmd
  | data
deriving DecidableEq, Repr

/-- Where the STOP in progress came from: with it, "delivering the result" (R19) is determined. R90. -/
inductive StopFrom where
  /-- exit 3: the address byte was not acknowledged. -/
  | addrNak
  /-- exits 5 and 7: the command or the data byte was not acknowledged. -/
  | dataNak
  /-- the read path, whose test (exit 8) comes after the STOP. -/
  | readEnd
  /-- the write path's end. -/
  | writeEnd
deriving DecidableEq, Repr

/-- `PHASE`, the sequencer's position. R19. -/
inductive Phase where
  | idle
  | buschk
  | start
  | tx (which : TxByte) (slot : Slot)
  | rx (slot : Slot)
  | stop (why : StopFrom)
deriving DecidableEq, Repr

/-- The five failures. R97. -/
inductive FailCode where
  | busBusy
  | unsupported
  | noAckAddress
  | noAckData
  | noAckRead
deriving DecidableEq, Repr

/-- The result of an `access`: a sum, so a failed read carries no byte. R47. -/
inductive Result where
  | okRead (b : Byte)
  | okWrite
  | fail (c : FailCode)
deriving DecidableEq, Repr

/-- What an inner operation returns to its caller. R52, column "result". -/
inductive OpReturn where
  | none
  | bit (b : Bool)
  /-- READBYTE's pair (`RDFAIL`, `RXACC`). -/
  | byte (failed : Bool) (b : Byte)
deriving DecidableEq, Repr

/-- The state. -/
@[ext]
structure State where
  /-- The parameters of R5, fixed for the life of the block: no operation writes them. Log entry 1. -/
  cfg : Params
  /-- `SHADOW`. R10. -/
  shadow : Word
  /-- `PHASE`. R19. -/
  phase : Phase
  /-- "The index of the next event of that phase's fixed micro-sequence". R19. -/
  evt : Nat
  /-- `T_SIZE`. R13. -/
  tSize : Byte
  /-- `T_DIR`. R13. -/
  tDir : Dir
  /-- `T_ADDR`. R13. -/
  tAddr : SlaveAddr
  /-- `T_CMD`. R13. -/
  tCmd : Byte
  /-- `T_DATA`. R13. -/
  tData : Byte
  /-- `ABYTE`. R15. -/
  aByte : Byte
  /-- `RXACC`. R16. -/
  rxAcc : Byte
  /-- `BITIDX`. R16. -/
  bitIdx : Fin 8
  /-- `ACKF`. R17. -/
  ackF : Bool
  /-- `RDFAIL`. R17. -/
  rdFail : Bool
  /-- `STATUS`, the result of the last `access`; none before the first one ends. R18. -/
  status : Option Result
  /-- The hardware control register. R9, R21 (a). -/
  ctrlReg : Word
  /-- The hardware initialisation register. R12, R21 (b). -/
  initReg : Word
  /-- The model's own: what the last inner operation returned. Log entry 7. -/
  ret : OpReturn
  /-- The model's own: the words waiting at the operation port, oldest first. Log entry 5. -/
  input : List PortWord
  /-- The model's own: the environment's scripted answers to register reads, next first. Log entry 3. -/
  env : List Word
  /-- The model's own: the trace since reset, oldest event first. R23. Log entry 6. -/
  trace : List Event
deriving DecidableEq, Repr

/-- Why the machine stops with a fault: never. Register accesses cannot fail (R32), no request word traps (R50), and
"a model must not add a fault" for a hardware failure (R115). Raised by nothing; safe. -/
inductive Fault where
deriving DecidableEq, Repr

/-- Why the machine gives a word no meaning. -/
inductive Refusal where
  /-- An operation without a meaning yet; raised by `exec` for no operation of this model. Safe. -/
  | notModelled (mnemonic : String)
  /-- A request offered while `PHASE` is not `IDLE`: "a model ... refuses" it (R78, R124). Raised by `exec` for the
  five request shapes. Safe. -/
  | requestInFlight
  /-- A micro-operation word whose `OP` is unassigned: "a model refuses it" (R53). Raised by `step`. Safe. -/
  | unassignedOp (op : BitVec 4)
deriving DecidableEq, Repr

/-- The state the reset procedure leaves (R116, R117) on a block with parameters `p`: the shadow at `SHADOW_INIT`,
`PHASE` idle, the initialisation register written once, and nothing else done. The registers the spec gives no
reset value are 0 (log entry 4). -/
def State.resetWith (p : Params) : State where
  cfg := p
  shadow := p.shadowInit
  phase := .idle
  evt := 0
  tSize := 0
  tDir := .write
  tAddr := 0
  tCmd := 0
  tData := 0
  aByte := 0
  rxAcc := 0
  bitIdx := 0
  ackF := false
  rdFail := false
  status := none
  ctrlReg := 0
  initReg := p.initValue
  ret := .none
  input := []
  env := []
  trace := [.write p.initOffset p.initValue]

/-- The machine right after reset. R116. -/
def State.reset : State := State.resetWith Config.params

end Sys2Proof.Machine
end

