-- ==== Sys2Proof/Machine/Operands.lean ====
section
/-! DEFINITION. The words and bytes the operations compute: the masks of R5, the line bits of a control word (R9), the
address byte (R49), the bit of a byte that is sent and the place of a bit that is received (R71, R73), and the
response word (R47). -/

namespace Sys2Proof

/-- `CLOCK_MASK`. R5. -/
def Params.clockMask (p : Params) : Word := BitVec.twoPow 32 p.clockBit

/-- `DATA_MASK`. R5. -/
def Params.dataMask (p : Params) : Word := BitVec.twoPow 32 p.dataBit

/-- `DATAIN_MASK`. R5. -/
def Params.dataInMask (p : Params) : Word := BitVec.twoPow 32 p.dataInBit

/-- `OTHER_MASK`: the 30 bits no operation changes. R5. -/
def Params.otherMask (p : Params) : Word := ~~~(p.clockMask ||| p.dataMask)

/-- `w.CLK`. R9. -/
def Params.clk (p : Params) (w : Word) : Bool := w.getLsbD p.clockBit

/-- `w.SDO`. R9. -/
def Params.sdo (p : Params) (w : Word) : Bool := w.getLsbD p.dataBit

/-- `w.SDI`, the data-in bit of a word a read returned: 1 when the line is high. R9, R62. -/
def Params.sdi (p : Params) (w : Word) : Bool := (w &&& p.dataInMask) != 0

/-- The word with its data bit set to `b`. R58. -/
def Params.setSdo (p : Params) (w : Word) (b : Bool) : Word :=
  if b then w ||| p.dataMask else w &&& ~~~p.dataMask

/-- The word with its clock bit set to `b`. R59, R60. -/
def Params.setClk (p : Params) (w : Word) (b : Bool) : Word :=
  if b then w ||| p.clockMask else w &&& ~~~p.clockMask

/-- The word with clock bit `c` and data bit `d` and the other 30 bits of `w`: the spec's `Wcd`. R7, R11. -/
def Params.withLines (p : Params) (w : Word) (c d : Bool) : Word := p.setClk (p.setSdo w d) c

namespace Machine

/-- The address byte: the address shifted left by one, or the direction bit. R49. -/
def addressByte (addr : SlaveAddr) (dir : Dir) : Byte :=
  addr.setWidth 8 <<< 1 ||| dir.bit.setWidth 8

/-- The bit of the operand that SENDBYTE presents at position `i`. R71. -/
def bitToSend (v : Byte) (i : Fin 8) : Bool := v.getLsbD i

/-- The accumulator with the sampled bit ORed into position `i`. R73. -/
def accumulate (acc : Byte) (s : Bool) (i : Fin 8) : Byte :=
  acc ||| (BitVec.ofBool s).setWidth 8 <<< i.val

/-- The `STATUS` code of a failure. R48. -/
def FailCode.code : FailCode → BitVec 4
  | .busBusy => 1
  | .unsupported => 2
  | .noAckAddress => 3
  | .noAckData => 4
  | .noAckRead => 5

/-- The `STATUS` code of a result; every success is `OK` = 0. R48. -/
def Result.code : Result → BitVec 4
  | .okRead _ => 0
  | .okWrite => 0
  | .fail c => c.code

/-- The `DATA` field of a response: the byte of a successful read, else 0. R47. -/
def Result.dataField : Result → Byte
  | .okRead b => b
  | .okWrite => 0
  | .fail _ => 0

/-- The response word `RSP`. R47. -/
def Result.rsp (r : Result) : Word := (0 : BitVec 20) ++ r.code ++ r.dataField

end Machine
end Sys2Proof
end

