-- ==== Sys2Proof/Machine/Flags.lean ====
section
/-! DEFINITION. The one-bit results (spec/10_state.md R17). -/

namespace Sys2Proof.Machine

/-- `ACKF`: does the sampled bit equal `ACK_SAMPLE`? R17, R70. -/
def ackFlag (p : Params) (s : Bool) : Bool := s == p.ackSample

/-- `RDFAIL`: did READBYTE's acknowledge check fail? R17, R73. -/
def rdFailFlag (ack : Bool) : Bool := !ack

/-- Busy: the sampled bit is 0, whatever `ACK_SAMPLE` is. R75. -/
def busyFlag (s : Bool) : Bool := !s

/-- The size test of step 2: is the size neither BYTE nor BYTE_DATA? R82. -/
def sizeUnsupported (size : Byte) : Bool := size != sizeByte && size != sizeByteData

end Sys2Proof.Machine
end

