-- ==== Sys2Proof/Machine/Ops.lean ====
section
/-! DEFINITION. The shared operations: the two primitives of the register window (spec/20_memory.md R26 to R32), the
acceptance of a request (R78), the end of an `access`, successful or failed (R89, R97, R105), and the return of an
inner operation. -/

namespace Sys2Proof.Machine

/-- The two registers of the window. R27. -/
inductive WinReg where
  | ctrl
  | init
deriving DecidableEq, Repr

/-- The register's offset, one of the two constants the block presents. R27. -/
def WinReg.offset (p : Params) : WinReg → Int
  | .ctrl => p.ctrlOffset
  | .init => p.initOffset

/-- `MemWrite(off, 4, v)`: the register takes all 32 bits, and the event is recorded. It cannot fail and changes no
state of the block. R28, R29, R32. -/
def memWrite (r : WinReg) (v : Word) (s : State) : State :=
  match r with
  | .ctrl => { s with ctrlReg := v, trace := s.trace ++ [.write (WinReg.offset s.cfg .ctrl) v] }
  | .init => { s with initReg := v, trace := s.trace ++ [.write (WinReg.offset s.cfg .init) v] }

/-- The environment's answer: the next scripted one, else a free draw on the whole history. R31. Log entry 3. -/
def answer (env : List Word) (history : List Event) : Word :=
  match env with
  | w :: _ => w
  | [] => Config.freeRead history

/-- `MemRead(off, 4)`: a fresh observation, never the shadow and never the register as written. R30, R31. That the
read leaves both registers of the window as they were is a DESIGN CHOICE: R30 and N5 of spec/91_not_in_source.md leave
a side effect on the hardware open in either direction. Log entry 20. -/
def memRead (r : WinReg) (s : State) : Word × State :=
  let w := answer s.env s.trace
  (w, { s with env := s.env.tail, trace := s.trace ++ [.read (WinReg.offset s.cfg r) w] })

/-- An inner operation hands its result to whoever issued it. R52. -/
def returnWith (r : OpReturn) (s : State) : State := { s with ret := r }

/-- Acceptance of a request: the five latches are written together and `PHASE` becomes `BUSCHK`. R78. -/
def accept (size : Byte) (dir : Dir) (addr : SlaveAddr) (cmd data : Byte) (s : State) : State :=
  { s with tSize := size, tDir := dir, tAddr := addr, tCmd := cmd, tData := data, phase := .buschk, evt := 0 }

/-- The end of every `access`: the result is delivered and `PHASE` returns to `IDLE`. R89. That the latches, the
accumulator and the flags go on holding what the transaction left in them is a DESIGN CHOICE: R13 and D25 of
spec/92_eei_decisions.md call them unspecified and dead between transactions. Log entry 21. -/
def finish (r : Result) (s : State) : State := { s with status := some r, phase := .idle, evt := 0 }

/-- `fail <STATUS>`, what stands for taking an exception: the failure is the result; nothing is saved, no mode changes
and no handler runs. R97, R105, R106. -/
def failWith (c : FailCode) (s : State) : State := finish (.fail c) s

/-- A word the decoder rejects is refused under the same name. R53. -/
def refusalOf : DecodeError → Refusal
  | .unassignedOp op => .unassignedOp op

end Sys2Proof.Machine
end

