-- ==== Sys2Proof/Machine/Lsc.lean ====
section
/-! DEFINITION. The Line State Controller (spec/40_line_state_controller.md): its five operations, and their meaning as
operations of the table. It alone touches the shadow and the window (R57). -/

namespace Sys2Proof.Machine

/-- SETDATA `b`: the shadow's data bit; the hardware is not written. R58. -/
def setData (b : Bool) (s : State) : State := { s with shadow := s.cfg.setSdo s.shadow b }

/-- CLOCKON: the shadow's clock bit. R59. -/
def clockOn (s : State) : State := { s with shadow := s.cfg.setClk s.shadow true }

/-- CLOCKOFF. R60. -/
def clockOff (s : State) : State := { s with shadow := s.cfg.setClk s.shadow false }

/-- COMMIT: the whole shadow is written to the control register, even when nothing changed; the settle wait that
follows changes no state. R61, R36, R121. -/
def commit (s : State) : State := memWrite .ctrl s.shadow s

/-- READDATALINE: SETDATA 1, COMMIT, a register read, of which only the data-in bit is used. R62. -/
def readDataLine (s : State) : Bool × State :=
  let r := memRead .ctrl (commit (setData true s))
  (s.cfg.sdi r.1, r.2)

/-- R58. -/
def execSetdata (b : Bool) (s : State) : Host.Outcome State Fault Refusal :=
  .next (returnWith .none (setData b s))

/-- R59. -/
def execClockon (s : State) : Host.Outcome State Fault Refusal := .next (returnWith .none (clockOn s))

/-- R60. -/
def execClockoff (s : State) : Host.Outcome State Fault Refusal := .next (returnWith .none (clockOff s))

/-- R61. -/
def execCommit (s : State) : Host.Outcome State Fault Refusal := .next (returnWith .none (commit s))

/-- R62. -/
def execReaddataline (s : State) : Host.Outcome State Fault Refusal :=
  let r := readDataLine s
  .next (returnWith (.bit r.1) r.2)

end Sys2Proof.Machine
end

