-- ==== Sys2Proof/Machine/Engine.lean ====
section
/-! DEFINITION. The I2C Protocol Engine (spec/41_protocol_engine.md): seven operations, each the literal sequence of
Line State Controller operations the spec gives, from whatever the shadow holds on entry (R64), and their meaning as
operations of the table. -/

namespace Sys2Proof.Machine

/-- START. It does not turn the clock on before its first COMMIT (R67). R66. -/
def start (s : State) : State :=
  commit (clockOn (commit (clockOff (commit (setData false (commit s))))))

/-- STOP. R68. -/
def stop (s : State) : State :=
  commit (clockOn (commit (clockOff (commit (setData true (commit (clockOn (commit (setData false s)))))))))

/-- READBIT is READDATALINE under the engine's name. R69, R55. -/
def readBit (s : State) : Bool × State := readDataLine s

/-- ACKCHECK: its sample is a whole READDATALINE, so it writes three times (R65); the sense is `ACK_SAMPLE`. R70. -/
def ackCheck (s : State) : Bool × State :=
  let r := readDataLine (commit (clockOn (setData true s)))
  let a := ackFlag s.cfg r.1
  (a, { commit (clockOff r.2) with ackF := a })

/-- One bit of SENDBYTE; the re-assert writes the shadow only. R71. -/
def sendBit (v : Byte) (i : Fin 8) (s : State) : State :=
  let b := bitToSend v i
  commit (clockOff (setData b (commit (clockOn (commit (setData b { s with bitIdx := i }))))))

/-- The loop of SENDBYTE over positions `n - 1` down to 0. R71. -/
def sendBits (v : Byte) : Nat → State → State
  | 0, s => s
  | n + 1, s => sendBits v n (sendBit v (Fin.ofNat 8 n) s)

/-- SENDBYTE `v`: eight bits, most significant first (R34), then one ACKCHECK. R71. -/
def sendByte (v : Byte) (s : State) : Bool × State := ackCheck (sendBits v 8 s)

/-- One bit of READBYTE; its last CLOCKOFF is left for the next COMMIT. R73. -/
def receiveBit (i : Fin 8) (s : State) : State :=
  let r := readBit (clockOn (commit { s with bitIdx := i }))
  clockOff (commit { r.2 with rxAcc := accumulate r.2.rxAcc r.1 i })

/-- The loop of READBYTE over positions `n - 1` down to 0. R73. -/
def receiveBits : Nat → State → State
  | 0, s => s
  | n + 1, s => receiveBits n (receiveBit (Fin.ofNat 8 n) s)

/-- READBYTE: the pair (`RDFAIL`, `RXACC`). R73, R74. -/
def readByte (s : State) : (Bool × Byte) × State :=
  let r := ackCheck (receiveBits 8 { commit (clockOff s) with rxAcc := 0 })
  let f := rdFailFlag r.1
  ((f, r.2.rxAcc), { r.2 with rdFail := f })

/-- BUSBUSY: one sample, no retry and no recovery. R75. -/
def busBusy (s : State) : Bool × State :=
  let r := readBit s
  (busyFlag r.1, r.2)

/-- R66. -/
def execStart (s : State) : Host.Outcome State Fault Refusal := .next (returnWith .none (start s))

/-- R68. -/
def execStop (s : State) : Host.Outcome State Fault Refusal := .next (returnWith .none (stop s))

/-- R69. -/
def execReadbit (s : State) : Host.Outcome State Fault Refusal :=
  let r := readBit s
  .next (returnWith (.bit r.1) r.2)

/-- R70. -/
def execAckcheck (s : State) : Host.Outcome State Fault Refusal :=
  let r := ackCheck s
  .next (returnWith (.bit r.1) r.2)

/-- R71. -/
def execSendbyte (v : Byte) (s : State) : Host.Outcome State Fault Refusal :=
  let r := sendByte v s
  .next (returnWith (.bit r.1) r.2)

/-- R73. -/
def execReadbyte (s : State) : Host.Outcome State Fault Refusal :=
  let r := readByte s
  .next (returnWith (.byte r.1.1 r.1.2) r.2)

/-- R75. -/
def execBusbusy (s : State) : Host.Outcome State Fault Refusal :=
  let r := busBusy s
  .next (returnWith (.bit r.1) r.2)

end Sys2Proof.Machine
end

