-- ==== Sys2Proof/Machine/Adapter.lean ====
section
/-! DEFINITION. The SMBus Transaction Adapter (spec/42_smbus_adapter.md): the algorithm of `access` (R79), and the
five request shapes as its instances (R91 to R95). -/

namespace Sys2Proof.Machine

/-- The end of a path that performed START and was refused a byte: STOP at once, then the failure. R105. -/
def stopAndFail (c : FailCode) (s : State) : State := failWith c (stop s)

/-- Step 6, read path: READBYTE, STOP whatever it reported, then the test of `RDFAIL`. No command is sent. R86. -/
def readPath (s : State) : State :=
  let r := stop (readByte s).2
  if r.rdFail then failWith .noAckRead r else finish (.okRead r.rxAcc) r

/-- Step 6, write path: the command byte, and for BYTE_DATA the data byte, each refused byte ending the transaction.
R87, R88, R89. -/
def writePath (s : State) : State :=
  let c := sendByte s.tCmd s
  if !c.1 then stopAndFail .noAckData c.2
  else if c.2.tSize = sizeByteData then
    let d := sendByte c.2.tData c.2
    if !d.1 then stopAndFail .noAckData d.2 else finish .okWrite (stop d.2)
  else finish .okWrite (stop c.2)

/-- Steps 3 to 7: the address byte, START, the address byte's SENDBYTE, and the path `T_DIR` alone chooses.
R83, R84, R85. -/
def transact (s : State) : State :=
  let a := addressByte s.tAddr s.tDir
  let r := sendByte a (start { s with aByte := a })
  if !r.1 then stopAndFail .noAckAddress r.2
  else match r.2.tDir with
    | .read => readPath r.2
    | .write => writePath r.2

/-- `access` on a request already accepted: the bus-busy check before the size check. R79, R80, R82, R104. -/
def access (s : State) : State :=
  let b := busBusy s
  if b.1 then failWith .busBusy b.2
  else if sizeUnsupported b.2.tSize then failWith .unsupported b.2
  else transact b.2

/-- A request offered to the block: accepted in `IDLE` only, and run to its result. R77, R78, R124. -/
def request (size : Byte) (dir : Dir) (addr : SlaveAddr) (cmd data : Byte) (s : State) :
    Host.Outcome State Fault Refusal :=
  if s.phase = .idle then .next (access (accept size dir addr cmd data s)) else .refused .requestInFlight

/-- R91. -/
def execWrb (addr : SlaveAddr) (cmd data : Byte) (s : State) : Host.Outcome State Fault Refusal :=
  request sizeByte .write addr cmd data s

/-- R92. -/
def execRdb (addr : SlaveAddr) (cmd data : Byte) (s : State) : Host.Outcome State Fault Refusal :=
  request sizeByte .read addr cmd data s

/-- R93. -/
def execWrbd (addr : SlaveAddr) (cmd data : Byte) (s : State) : Host.Outcome State Fault Refusal :=
  request sizeByteData .write addr cmd data s

/-- R94. -/
def execRdbd (addr : SlaveAddr) (cmd data : Byte) (s : State) : Host.Outcome State Fault Refusal :=
  request sizeByteData .read addr cmd data s

/-- R95. -/
def execUnsup (size : Byte) (dir : Dir) (addr : SlaveAddr) (cmd data : Byte) (s : State) :
    Host.Outcome State Fault Refusal :=
  request size dir addr cmd data s

end Sys2Proof.Machine
end

