-- ==== Sys2Proof/Machine/Dispatch.lean ====
section
/-! DEFINITION. One arm per operation of spec/opcode_table.json. -/

namespace Sys2Proof.Machine

def exec (i : Instr) (s : State) : Host.Outcome State Fault Refusal :=
  match i with
  -- the five request shapes
  | .wrb addr cmd data => Sys2Proof.Machine.execWrb addr cmd data s
  | .rdb addr cmd data => Sys2Proof.Machine.execRdb addr cmd data s
  | .wrbd addr cmd data => Sys2Proof.Machine.execWrbd addr cmd data s
  | .rdbd addr cmd data => Sys2Proof.Machine.execRdbd addr cmd data s
  | .unsup size dir addr cmd data => Sys2Proof.Machine.execUnsup size dir addr cmd data s
  -- the Line State Controller
  | .setdata b => Sys2Proof.Machine.execSetdata b s
  | .clockon => Sys2Proof.Machine.execClockon s
  | .clockoff => Sys2Proof.Machine.execClockoff s
  | .commit => Sys2Proof.Machine.execCommit s
  | .readdataline => Sys2Proof.Machine.execReaddataline s
  -- the Protocol Engine
  | .start => Sys2Proof.Machine.execStart s
  | .stop => Sys2Proof.Machine.execStop s
  | .readbit => Sys2Proof.Machine.execReadbit s
  | .ackcheck => Sys2Proof.Machine.execAckcheck s
  | .sendbyte v => Sys2Proof.Machine.execSendbyte v s
  | .readbyte => Sys2Proof.Machine.execReadbyte s
  | .busbusy => Sys2Proof.Machine.execBusbusy s

end Sys2Proof.Machine
end

