-- ==== Sys2Proof/Machine/Sequencer.lean ====
section
/-! DEFINITION. The same `access`, one register event at a time: the sequencer of spec/10_state.md R19, whose position
is `PHASE` and the index of the next event in it. "A model may step event by event or take a whole `access` as one
step" (R19, spec/92_eei_decisions.md D18): `exec` takes the whole; a transaction found in flight goes on here. -/

namespace Sys2Proof.Machine

/-- Entering a phase: its next event is its first. R19. -/
def enter (p : Phase) (s : State) : State := { s with phase := p, evt := 0 }

/-- Going on in the same phase. R19. -/
def nextEvent (s : State) : State := { s with evt := s.evt + 1 }

/-- The slot after data bit `i`: the bit below it, or the acknowledge. R19. -/
def slotAfter (i : Fin 8) : Slot :=
  match i.val with
  | 0 => .ack
  | n + 1 => .bit (Fin.ofNat 8 n)

/-- The byte a TX phase sends. R83, R87, R88. -/
def txOperand (which : TxByte) (s : State) : Byte :=
  match which with
  | .addr => s.aByte
  | .cmd => s.tCmd
  | .data => s.tData

/-- The phase after a byte's acknowledge slot, at exits 3 to 7. R84, R85, R87, R88, R90. -/
def afterAck (which : TxByte) (s : State) : Phase :=
  match which, s.ackF, s.tDir with
  | .addr, false, _ => .stop .addrNak
  | .addr, true, .read => .rx (.bit 7)
  | .addr, true, .write => .tx .cmd (.bit 7)
  | .cmd, false, _ => .stop .dataNak
  | .cmd, true, _ => if s.tSize = sizeByteData then .tx .data (.bit 7) else .stop .writeEnd
  | .data, false, _ => .stop .dataNak
  | .data, true, _ => .stop .writeEnd

/-- The result delivered when STOP ends; the read path tests `RDFAIL` here (exit 8). R86, R89, R90. -/
def resultAfterStop (why : StopFrom) (s : State) : Result :=
  match why with
  | .addrNak => .fail .noAckAddress
  | .dataNak => .fail .noAckData
  | .readEnd => if s.rdFail then .fail .noAckRead else .okRead s.rxAcc
  | .writeEnd => .okWrite

/-- The events of `BUSCHK`: the write and the read of BUSBUSY, with steps 1, 2 and 3 after it. R79, R80, R82. -/
def buschkEvent (k : Nat) (s : State) : State :=
  match k with
  | 0 => nextEvent (commit (setData true s))
  | _ =>
    let r := memRead .ctrl s
    if busyFlag (s.cfg.sdi r.1) then failWith .busBusy r.2
    else if sizeUnsupported r.2.tSize then failWith .unsupported r.2
    else enter .start { r.2 with aByte := addressByte r.2.tAddr r.2.tDir }

/-- The four events of `START`. R66. -/
def startEvent (k : Nat) (s : State) : State :=
  match k with
  | 0 => nextEvent (commit s)
  | 1 => nextEvent (commit (setData false s))
  | 2 => nextEvent (commit (clockOff s))
  | _ => enter (.tx .addr (.bit 7)) (commit (clockOn s))

/-- The three events of one bit of a SENDBYTE. R71. -/
def txBitEvent (which : TxByte) (i : Fin 8) (k : Nat) (s : State) : State :=
  let b := bitToSend (txOperand which s) i
  match k with
  | 0 => nextEvent (commit (setData b { s with bitIdx := i }))
  | 1 => nextEvent (commit (clockOn s))
  | _ => enter (.tx which (slotAfter i)) (commit (clockOff (setData b s)))

/-- The four events of an ACKCHECK, which then goes where `after` says; the flag is known at its read. R70. -/
def ackEvent (k : Nat) (after : State → State) (s : State) : State :=
  match k with
  | 0 => nextEvent (commit (clockOn (setData true s)))
  | 1 => nextEvent (commit (setData true s))
  | 2 =>
    let r := memRead .ctrl s
    nextEvent { r.2 with ackF := ackFlag s.cfg (s.cfg.sdi r.1) }
  | _ => after (commit (clockOff s))

/-- The four events of one bit of READBYTE; the group's CLOCKOFF goes with its last event. R73. -/
def rxBitEvent (i : Fin 8) (k : Nat) (s : State) : State :=
  match k with
  | 0 => nextEvent (commit { s with bitIdx := i })
  | 1 => nextEvent (commit (setData true (clockOn s)))
  | 2 =>
    let r := memRead .ctrl s
    nextEvent { r.2 with rxAcc := accumulate r.2.rxAcc (s.cfg.sdi r.1) i }
  | _ => enter (.rx (slotAfter i)) (clockOff (commit s))

/-- The events of `RX(BIT i)`: READBYTE's opening write belongs to bit 7. R19, R73. -/
def rxEvent (i : Fin 8) (k : Nat) (s : State) : State :=
  if i = 7 then
    match k with
    | 0 => nextEvent { commit (clockOff s) with rxAcc := 0 }
    | n + 1 => rxBitEvent i n s
  else rxBitEvent i k s

/-- The five events of `STOP`, after which the result is delivered. R68, R89. -/
def stopEvent (why : StopFrom) (k : Nat) (s : State) : State :=
  match k with
  | 0 => nextEvent (commit (setData false s))
  | 1 => nextEvent (commit (clockOn s))
  | 2 => nextEvent (commit (setData true s))
  | 3 => nextEvent (commit (clockOff s))
  | _ =>
    let s' := commit (clockOn s)
    finish (resultAfterStop why s') s'

/-- One event of the transaction in flight; in `IDLE` there is none. R19, R36. -/
def eventStep (s : State) : State :=
  match s.phase with
  | .idle => s
  | .buschk => buschkEvent s.evt s
  | .start => startEvent s.evt s
  | .tx which (.bit i) => txBitEvent which i s.evt s
  | .tx which .ack => ackEvent s.evt (fun t => enter (afterAck which t) t) s
  | .rx (.bit i) => rxEvent i s.evt s
  | .rx .ack => ackEvent s.evt (fun t => enter (.stop .readEnd) { t with rdFail := rdFailFlag t.ackF }) s
  | .stop why => stopEvent why s.evt s

end Sys2Proof.Machine
end

