-- ==== Sys2Proof/Machine/Step.lean ====
section
/-! DEFINITION. One step of the machine. The block fetches nothing (spec/20_memory.md R25, R41): its next operation is
the oldest word waiting at its port, taken only in `IDLE` (R78). -/

namespace Sys2Proof.Machine

/-- The step: in `IDLE` the oldest waiting word is taken and run, and with none waiting nothing happens (R114); a
transaction found in flight goes on by one event (R19). -/
def step (s : State) : Host.Outcome State Fault Refusal :=
  if s.phase = .idle then
    match s.input with
    | [] => .next s
    | p :: rest =>
      match decode p with
      | .ok i => exec i { s with input := rest }
      | .error e => .refused (refusalOf e)
  else .next (eventStep s)

/-- The state whose very next step takes and runs the given word: the word stands first at the port and the block is
in `IDLE`. Bits that are no word of the port leave the state as it is. Log entry 5. -/
def State.withFetchWord (s : State) (nbits w : Nat) : State :=
  match PortWord.ofBits nbits w with
  | some p => { s with phase := .idle, evt := 0, input := p :: s.input }
  | none => s

end Sys2Proof.Machine
end

