-- ==== Sys2Proof/Machine/Trace.lean ====
section
/-! DEFINITION. The words the spec speaks about traces in (spec/10_state.md R23, R24): the events of a trace, the wire
trace and the shapes on it, the counts of R76 and R96, the least durations of R127, and the traces the rules of the
engine and of the adapter write out. Nothing here is a step of the machine. -/

namespace Sys2Proof

/-- The event `Wcd` on a control word whose other 30 bits are `base`'s. R7, R11. -/
def Params.wr (p : Params) (base : Word) (c d : Bool) : Event := .write p.ctrlOffset (p.withLines base c d)

/-- The event `R` of a control-register read that returned `w`. R7. -/
def Params.rd (p : Params) (w : Word) : Event := .read p.ctrlOffset w

namespace Machine

/-- The state's clock bit. -/
def State.clk (s : State) : Bool := s.cfg.clk s.shadow

/-- The state's data bit. -/
def State.sdo (s : State) : Bool := s.cfg.sdo s.shadow

/-- A pair (clock, data) as commanded by one write. R24. -/
abbrev Lines := Bool × Bool

/-- The lines an event commands, if it is a control-register write. R24. -/
def linesOf (p : Params) : Event → Option Lines
  | .write off v => if off = p.ctrlOffset then some (p.clk v, p.sdo v) else none
  | .read _ _ => none

/-- Merges runs of equal neighbours, given the pair that stands before. R24. -/
def mergeAfter (prev : Lines) : List Lines → List Lines
  | [] => []
  | x :: xs => if x = prev then mergeAfter prev xs else x :: mergeAfter x xs

/-- The wire trace: the commanded pairs in order, equal neighbours merged. R24. -/
def wireTrace (p : Params) (tr : List Event) : List Lines :=
  match tr.filterMap (linesOf p) with
  | [] => []
  | x :: xs => x :: mergeAfter x xs

/-- A START-shaped transition: data falls while the clock is high. R24. -/
def startShaped (a b : Lines) : Bool := a == (true, true) && b == (true, false)

/-- A STOP-shaped transition: data rises while the clock is high. R24. -/
def stopShaped (a b : Lines) : Bool := a == (true, false) && b == (true, true)

/-- A clock rising edge. R24. -/
def clockRises (a b : Lines) : Bool := !a.1 && b.1

/-- A clock falling edge. R24. -/
def clockFalls (a b : Lines) : Bool := a.1 && !b.1

/-- The one write that moves both lines: from (0, 0) to (1, 1). R123. -/
def bothLinesRise (a b : Lines) : Bool := a == (false, false) && b == (true, true)

/-- How many neighbours of a list make a given shape. -/
def countShape (f : Lines → Lines → Bool) : List Lines → Nat
  | a :: b :: rest => (if f a b then 1 else 0) + countShape f (b :: rest)
  | _ => 0

/-- Do all neighbours of a list have a given property? -/
def allSteps (f : Lines → Lines → Bool) : List Lines → Bool
  | a :: b :: rest => f a b && allSteps f (b :: rest)
  | _ => true

/-- Item 4 of R120: a change of the data bit is a START or STOP shape, or happens with the clock low before and after,
or is the write of R123. -/
def dataMoveAllowed (a b : Lines) : Bool :=
  a.2 == b.2 || startShaped a b || stopShaped a b || (!a.1 && !b.1) || bothLinesRise a b

/-- The control-register writes of a trace. R76, R96. -/
def numWrites (p : Params) (tr : List Event) : Nat :=
  tr.countP fun e => match e with
    | .write off _ => off == p.ctrlOffset
    | .read _ _ => false

/-- The control-register reads of a trace. R76, R96. -/
def numReads (p : Params) (tr : List Event) : Nat :=
  tr.countP fun e => match e with
    | .write _ _ => false
    | .read off _ => off == p.ctrlOffset

/-- The writes of a trace to the initialisation register. R12. -/
def numInitWrites (p : Params) (tr : List Event) : Nat :=
  tr.countP fun e => match e with
    | .write off _ => off == p.initOffset
    | .read _ _ => false

/-- The least duration of a trace in microseconds: one settle interval per control-register write. R127.
The interval is a whole number of microseconds (log entry 19). -/
def leastDurationUs (p : Params) (tr : List Event) : Nat := numWrites p tr * p.settleUs

/-- The word last written to the control register, if any was. R21 (a). -/
def lastCtrlWrite (p : Params) (tr : List Event) : Option Word :=
  (tr.filterMap fun e => match e with
    | .write off v => if off = p.ctrlOffset then some v else none
    | .read _ _ => none).getLast?

/-- READBIT and BUSBUSY with the clock at `c`: `Wc1 R(w)`. R69, R75. -/
def sampleTrace (p : Params) (base : Word) (c : Bool) (w : Word) : List Event := [p.wr base c true, p.rd w]

/-- START entered with (`c`, `d`): `Wcd Wc0 W00 W10`. R66, R67. -/
def startTrace (p : Params) (base : Word) (c d : Bool) : List Event :=
  [p.wr base c d, p.wr base c false, p.wr base false false, p.wr base true false]

/-- STOP entered with the clock at `c`: `Wc0 W10 W11 W01 W11`. R68. -/
def stopTrace (p : Params) (base : Word) (c : Bool) : List Event :=
  [p.wr base c false, p.wr base true false, p.wr base true true, p.wr base false true, p.wr base true true]

/-- ACKCHECK: `W11 W11 R(w) W01`. R70. -/
def ackTrace (p : Params) (base : Word) (w : Word) : List Event :=
  [p.wr base true true, p.wr base true true, p.rd w, p.wr base false true]

/-- One bit of SENDBYTE entered with the clock at `c`: `Wcb W1b W0b`. R71, R72. -/
def bitTrace (p : Params) (base : Word) (c b : Bool) : List Event :=
  [p.wr base c b, p.wr base true b, p.wr base false b]

/-- The eight groups of SENDBYTE `v` entered with the clock at `c`, bit 7 first. R71, R72. -/
def sendBitsTrace (p : Params) (base : Word) (c : Bool) (v : Byte) : List Event :=
  bitTrace p base c (v.getLsbD 7) ++ bitTrace p base false (v.getLsbD 6) ++ bitTrace p base false (v.getLsbD 5) ++
  bitTrace p base false (v.getLsbD 4) ++ bitTrace p base false (v.getLsbD 3) ++ bitTrace p base false (v.getLsbD 2) ++
  bitTrace p base false (v.getLsbD 1) ++ bitTrace p base false (v.getLsbD 0)

/-- SENDBYTE `v` whole: the eight groups, then the acknowledge. R71. -/
def sendTrace (p : Params) (base : Word) (c : Bool) (v : Byte) (w : Word) : List Event :=
  sendBitsTrace p base c v ++ ackTrace p base w

/-- One bit of READBYTE: `W0d W11 R(w) W11`, where `d` is the data bit on entry. R73. -/
def rxBitTrace (p : Params) (base : Word) (d : Bool) (w : Word) : List Event :=
  [p.wr base false d, p.wr base true true, p.rd w, p.wr base true true]

/-- The nine answers READBYTE draws: one per bit, most significant first, then the acknowledge. R73. -/
structure RxDraws where
  w7 : Word
  w6 : Word
  w5 : Word
  w4 : Word
  w3 : Word
  w2 : Word
  w1 : Word
  w0 : Word
  ack : Word
deriving DecidableEq, Repr

/-- The draws in the order they are made. -/
def RxDraws.list (r : RxDraws) : List Word := [r.w7, r.w6, r.w5, r.w4, r.w3, r.w2, r.w1, r.w0, r.ack]

/-- READBYTE's accumulator: `s_7 ++ ... ++ s_0`, not inverted. R73. -/
def RxDraws.byte (p : Params) (r : RxDraws) : Byte :=
  BitVec.ofBoolListBE [p.sdi r.w7, p.sdi r.w6, p.sdi r.w5, p.sdi r.w4, p.sdi r.w3, p.sdi r.w2, p.sdi r.w1, p.sdi r.w0]

/-- READBYTE entered with the data bit at `d`: the opening write, eight groups, the acknowledge. R73. -/
def readTrace (p : Params) (base : Word) (d : Bool) (r : RxDraws) : List Event :=
  [p.wr base false d] ++ rxBitTrace p base d r.w7 ++ rxBitTrace p base true r.w6 ++ rxBitTrace p base true r.w5 ++
  rxBitTrace p base true r.w4 ++ rxBitTrace p base true r.w3 ++ rxBitTrace p base true r.w2 ++
  rxBitTrace p base true r.w1 ++ rxBitTrace p base true r.w0 ++ ackTrace p base r.ack

/-- The answers `ws` were drawn, in this order, between two environments: each is the next scripted answer where the
script still has one, and is free where it has none (R31); what is left of the script is what follows them. -/
def Drawn (before after : List Word) : List Word → Prop
  | [] => after = before
  | w :: ws => (∀ x, before.head? = some x → w = x) ∧ Drawn before.tail after ws

end Machine
end Sys2Proof
end

