-- ==== Sys2Proof/Safety.lean ====
section
/-! DEFINITION. What the claims mean by a state in order and by a safe run. -/

namespace Sys2Proof.Machine

/-- R11: the 30 bits other than the two line bits are those of `SHADOW_INIT`, in the shadow and in every word ever
written to the control register. -/
def EnableBitsKept (s : State) : Prop :=
  s.shadow &&& s.cfg.otherMask = s.cfg.shadowInit &&& s.cfg.otherMask ∧
  ∀ v : Word, Event.write s.cfg.ctrlOffset v ∈ s.trace →
    v &&& s.cfg.otherMask = s.cfg.shadowInit &&& s.cfg.otherMask

/-- R12: the trace since reset has exactly one write to the initialisation register, of `INIT_VALUE`, and that
register still holds it. (Through register reads: log entry 20.) -/
def InitWrittenOnce (s : State) : Prop :=
  numInitWrites s.cfg s.trace = 1 ∧ Event.write s.cfg.initOffset s.cfg.initValue ∈ s.trace ∧
    s.initReg = s.cfg.initValue

/-- R21 (a): once a COMMIT was made the control register holds the word last written. (Through reads: log entry 20.) -/
def CtrlHoldsLastWrite (s : State) : Prop := ∀ v, lastCtrlWrite s.cfg s.trace = some v → s.ctrlReg = v

/-- Every word waiting at the port is a request, as it is for a host, which can issue nothing else (R52). -/
def OnlyRequests (s : State) : Prop := ∀ p ∈ s.input, ∃ w, p = .req w

/-- The line bits of the shadow before each event of a transaction, as R76's entry and exit columns give them and the
sequences between them (R66 to R73): in `IDLE` and before START's first two events (1, 1), and so on. Where the lines
stand between two events of one phase is the model's choice, since the spec fixes only the order of the events. Log
entry 11. -/
def linesBefore (s : State) (c d : Bool) : Prop :=
  match s.phase, s.evt with
  | .idle, _ => c = true ∧ d = true
  | .buschk, _ => c = true ∧ d = true
  | .start, 0 => c = true ∧ d = true
  | .start, 1 => c = true ∧ d = true
  | .start, 2 => c = true ∧ d = false
  | .start, _ => c = false ∧ d = false
  | .tx .addr (.bit i), 0 => if i = 7 then c = true ∧ d = false else c = false
  | .tx .addr (.bit i), 1 => c = decide (i = 7)
  | .tx _ (.bit _), 0 => c = false
  | .tx _ (.bit _), 1 => c = false
  | .tx _ (.bit _), _ => c = true
  | .tx _ .ack, 0 => c = false
  | .tx _ .ack, _ => c = true ∧ d = true
  | .rx (.bit _), 0 => c = false ∧ d = true
  | .rx (.bit _), 1 => c = false ∧ d = true
  | .rx (.bit i), 2 => if i = 7 then c = false ∧ d = true else c = true ∧ d = true
  | .rx (.bit _), _ => c = true ∧ d = true
  | .rx .ack, 0 => c = false ∧ d = true
  | .rx .ack, _ => c = true ∧ d = true
  | .stop _, 0 => c = false ∧ d = true
  | .stop _, 1 => c = false ∧ d = false
  | .stop _, 2 => c = true ∧ d = false
  | .stop _, 3 => c = true ∧ d = true
  | .stop _, _ => c = false ∧ d = true

/-- How many events a phase has. R19 with R66 to R73 and R75. -/
def eventsOf : Phase → Nat
  | .idle => 1
  | .buschk => 2
  | .start => 4
  | .tx _ (.bit _) => 3
  | .tx _ .ack => 4
  | .rx (.bit i) => if i = 7 then 5 else 4
  | .rx .ack => 4
  | .stop _ => 5

/-- A transaction as a host can bring it about: only requests wait, the sequencer stands at an event of its phase, and
the lines are where the sequences put them (between two events of one phase: log entry 11). -/
def InOrder (s : State) : Prop :=
  OnlyRequests s ∧ s.evt < eventsOf s.phase ∧ linesBefore s s.clk s.sdo

/-- The idle state of R107: `PHASE` = `IDLE`, clock and data high in the shadow. -/
def Idle (s : State) : Prop := s.phase = .idle ∧ s.clk = true ∧ s.sdo = true

/-- A safe run: `k` steps were taken, none was refused, and the block kept its enable bits. -/
def SafeRun (k : Nat) (s t : State) : Prop := Host.Core.run Sys2Proof.core k s = .next t ∧ EnableBitsKept t

/-- What no request changes: the parameters, the initialisation register, the words waiting and what the last inner
operation returned. R12, R20. (That reads at the control offset leave the initialisation register alone: log entry 20.) -/
def RequestLeaves (s t : State) : Prop :=
  t.cfg = s.cfg ∧ t.initReg = s.initReg ∧ t.input = s.input ∧ t.ret = s.ret

/-- The five latches hold the request's fields. R78. (Once the request has ended: log entry 21.) -/
def Latched (t : State) (size : Byte) (dir : Dir) (addr : SlaveAddr) (cmd data : Byte) : Prop :=
  t.tSize = size ∧ t.tDir = dir ∧ t.tAddr = addr ∧ t.tCmd = cmd ∧ t.tData = data

/-- The engine's latches and flags: `ABYTE`, `BITIDX`, `ACKF`, `RXACC`, `RDFAIL`. R15, R16, R17. (Once the request has
ended: log entry 21.) -/
def EngineHolds (t : State) (aByte : Byte) (bitIdx : Fin 8) (ackF : Bool) (rxAcc : Byte) (rdFail : Bool) : Prop :=
  t.aByte = aByte ∧ t.bitIdx = bitIdx ∧ t.ackF = ackF ∧ t.rxAcc = rxAcc ∧ t.rdFail = rdFail

/-- An `access` that went from `s` to `t` ended with result `r`, the lines at (`c`, `d`) in the shadow and in the
control register, having added the trace `tr` and drawn the answers `ws`. R89. (For the control register of an `access` that
ends at the bus check, whose last event is a read: log entry 20.) -/
def Ended (s t : State) (r : Result) (c d : Bool) (tr : List Event) (ws : List Word) : Prop :=
  t.phase = .idle ∧ t.evt = 0 ∧ t.status = some r ∧ t.shadow = s.cfg.withLines s.shadow c d ∧ t.ctrlReg = t.shadow ∧
    t.trace = s.trace ++ tr ∧ Drawn s.env t.env ws

/-- The trace of an `access` up to the acknowledge of the address byte: the bus check, START, the address byte.
R79, R80, R84. -/
def headTrace (s : State) (addr : SlaveAddr) (dir : Dir) (w0 w1 : Word) : List Event :=
  sampleTrace s.cfg s.shadow s.clk w0 ++ startTrace s.cfg s.shadow s.clk true ++
    sendTrace s.cfg s.shadow true (addressByte addr dir) w1

/-- May the operation end in the result? The table of R103. -/
def mayEndIn : Instr → Result → Bool
  | .wrb _ _ _, r | .wrbd _ _ _, r =>
    r == .okWrite || r == .fail .busBusy || r == .fail .noAckAddress || r == .fail .noAckData
  | .rdb _ _ _, .okRead _ | .rdbd _ _ _, .okRead _ => true
  | .rdb _ _ _, r | .rdbd _ _ _, r => r == .fail .busBusy || r == .fail .noAckAddress || r == .fail .noAckRead
  | .unsup _ _ _ _ _, r => r == .fail .busBusy || r == .fail .unsupported
  | .setdata _, _ | .clockon, _ | .clockoff, _ | .commit, _ | .readdataline, _ | .start, _ | .stop, _ | .readbit, _
  | .ackcheck, _ | .sendbyte _, _ | .readbyte, _ | .busbusy, _ => false

/-- Writes and reads of an `access` by operation and result: the rows of R96. -/
def countsAllowed (i : Instr) (r : Result) (writes reads : Nat) : Prop :=
  match r with
  | .fail .busBusy | .fail .unsupported => writes = 1 ∧ reads = 1
  | .fail .noAckAddress => writes = 37 ∧ reads = 2
  | .okRead _ | .fail .noAckRead => writes = 65 ∧ reads = 11
  | .okWrite =>
    match i with
    | .wrbd _ _ _ => writes = 91 ∧ reads = 4
    | _ => writes = 64 ∧ reads = 3
  | .fail .noAckData =>
    match i with
    | .wrbd _ _ _ => (writes = 64 ∧ reads = 3) ∨ (writes = 91 ∧ reads = 4)
    | _ => writes = 64 ∧ reads = 3

/-- The address a request carries. R42. -/
def reqAddrOf : Instr → SlaveAddr
  | .wrb a _ _ | .rdb a _ _ | .wrbd a _ _ | .rdbd a _ _ | .unsup _ _ a _ _ => a
  | .setdata _ | .clockon | .clockoff | .commit | .readdataline | .start | .stop | .readbit | .ackcheck | .sendbyte _
  | .readbyte | .busbusy => 0

/-- Was START performed? It was unless the bus was busy or the size unsupported. R89. -/
def startPerformed : Result → Bool
  | .fail .busBusy | .fail .unsupported => false
  | .fail .noAckAddress | .fail .noAckData | .fail .noAckRead | .okRead _ | .okWrite => true

end Sys2Proof.Machine
end

