-- ==== Sys2Proof/Certificates/Slice0/Obligations.lean ====
section
/-! DEFINITION. The statements for the provers. -/

open Sys2Proof Sys2Proof.Machine

/-! ### Encodings -/

/-- Words written out from spec/30_encoding.md R45, R52 and the vectors V1 to V10 decode to what they stand for. -/
def Obligations.WrittenOutWordsDecode : Prop :=
  decode (.req 0x012D1200) = .ok (.wrb 0x2D 0x12 0x00) ∧
  decode (.req 0x01AD0000) = .ok (.rdb 0x2D 0x00 0x00) ∧
  decode (.req 0x025010AB) = .ok (.wrbd 0x50 0x10 0xAB) ∧
  decode (.req 0x02D0FFEE) = .ok (.rdbd 0x50 0xFF 0xEE) ∧
  decode (.req 0x03500000) = .ok (.unsup 3 .write 0x50 0x00 0x00) ∧
  decode (.req 0xFFFFFFFF) = .ok (.unsup 0xFF .read 0x7F 0xFF 0xFF) ∧
  decode (.prim 0x001) = .ok (.setdata true) ∧ decode (.prim 0x300) = .ok .commit ∧
  decode (.prim 0x500) = .ok .start ∧ decode (.prim 0x9A0) = .ok (.sendbyte 0xA0) ∧
  decode (.prim 0xB00) = .ok .busbusy

/-- Decoding the words of a well-formed operation gives it back, whatever its operands. -/
def Obligations.DecodeOfEncodeGivesBack : Prop := ∀ i : Instr, i.wf = true → decode (encode i) = .ok i

/-- "Every 32-bit word is a well-formed request word" (R42): it stands for one operation, whose encoding it is, and the
fields stand where the table of R42 puts them. -/
def Obligations.EveryRequestWordStandsForItsOperation : Prop :=
  ∀ w : Word,
    (∃ i, decode (.req w) = .ok i ∧ i.wf = true ∧ i.isRequest = true ∧ encode i = .req w) ∧
    w = reqSize w ++ (reqDir w).bit ++ reqAddr w ++ reqCommand w ++ reqData w ∧
    (∀ k < 8, (reqSize w).getLsbD k = w.getLsbD (24 + k)) ∧ (reqDir w = .read ↔ w.getLsbD 23 = true) ∧
    (∀ k < 7, (reqAddr w).getLsbD k = w.getLsbD (16 + k)) ∧ (∀ k < 8, (reqCommand w).getLsbD k = w.getLsbD (8 + k)) ∧
    (∀ k < 8, (reqData w).getLsbD k = w.getLsbD k)

/-- The opcode map of R45, read as its match and mask pairs: the first row a word matches is the operation it selects,
and the eight exact patterns of the UNSUP row hit its words once each and no other word. -/
def Obligations.OpcodeMapSelectsBySizeAndDirection : Prop :=
  ∀ w : Word,
    (w &&& 0xFF800000 = 0x01000000 → decode (.req w) = .ok (.wrb (reqAddr w) (reqCommand w) (reqData w))) ∧
    (w &&& 0xFF800000 = 0x01800000 → decode (.req w) = .ok (.rdb (reqAddr w) (reqCommand w) (reqData w))) ∧
    (w &&& 0xFF800000 = 0x02000000 → decode (.req w) = .ok (.wrbd (reqAddr w) (reqCommand w) (reqData w))) ∧
    (w &&& 0xFF800000 = 0x02800000 → decode (.req w) = .ok (.rdbd (reqAddr w) (reqCommand w) (reqData w))) ∧
    firstRow w = some (decodeReq w).mnemonic ∧
    unsupRows.countP (·.hits w) = if (decodeReq w).mnemonic = "UNSUP" then 1 else 0

/-- The table of R52: `OP` names the operation; `ARG[0]` is SETDATA's bit, `ARG` SENDBYTE's byte, and every other bit
is ignored. -/
def Obligations.MicroOperationWordsNameTheirOperation : Prop :=
  ∀ arg : Byte,
    decode (.prim (packPrim 0 arg)) = .ok (.setdata (arg.getLsbD 0)) ∧ decode (.prim (packPrim 1 arg)) = .ok .clockon ∧
    decode (.prim (packPrim 2 arg)) = .ok .clockoff ∧ decode (.prim (packPrim 3 arg)) = .ok .commit ∧
    decode (.prim (packPrim 4 arg)) = .ok .readdataline ∧ decode (.prim (packPrim 5 arg)) = .ok .start ∧
    decode (.prim (packPrim 6 arg)) = .ok .stop ∧ decode (.prim (packPrim 7 arg)) = .ok .readbit ∧
    decode (.prim (packPrim 8 arg)) = .ok .ackcheck ∧ decode (.prim (packPrim 9 arg)) = .ok (.sendbyte arg) ∧
    decode (.prim (packPrim 10 arg)) = .ok .readbyte ∧ decode (.prim (packPrim 11 arg)) = .ok .busbusy

/-- R53: "`OP` values 12 to 15 are unassigned"; the decoder rejects them by name and a step on one is refused. -/
def Obligations.UnassignedMicroOperationIsRefused : Prop :=
  ∀ (op : BitVec 4) (arg : Byte), 12 ≤ op.toNat →
    decode (.prim (packPrim op arg)) = .error (.unassignedOp op) ∧
    ∀ (s : State) (rest : List PortWord), s.phase = .idle → s.input = .prim (packPrim op arg) :: rest →
      step s = .refused (.unassignedOp op)

/-- R49: `ABYTE[7:1] = T_ADDR[6:0]` and `ABYTE[0] = T_DIR`, with the spec's examples. -/
def Obligations.AddressByteIsAddressThenDirection : Prop :=
  (∀ (a : SlaveAddr) (d : Dir),
    (∀ k < 7, (addressByte a d).getLsbD (k + 1) = a.getLsbD k) ∧ ((addressByte a d).getLsbD 0 = true ↔ d = .read)) ∧
  addressByte 0x50 .write = 0xA0 ∧ addressByte 0x50 .read = 0xA1

/-- R47, R48: the response word's fields, the six codes, and that no other code is produced. -/
def Obligations.ResponseWordCarriesStatusAndByte : Prop :=
  (∀ r : Result, r.rsp.extractLsb' 12 20 = 0 ∧ r.rsp.extractLsb' 8 4 = r.code ∧
    r.rsp.extractLsb' 0 8 = r.dataField ∧ r.code.toNat ≤ 5 ∧ (r.code = 0 ↔ r = .okWrite ∨ ∃ b, r = .okRead b)) ∧
  (∀ b : Byte, (Result.okRead b).rsp = b.setWidth 32) ∧ Result.okWrite.rsp = 0 ∧
  (Result.fail .busBusy).rsp = 0x100 ∧ (Result.fail .unsupported).rsp = 0x200 ∧
  (Result.fail .noAckAddress).rsp = 0x300 ∧ (Result.fail .noAckData).rsp = 0x400 ∧
  (Result.fail .noAckRead).rsp = 0x500

/-- R54: an assembled line decodes to the operation it means, with 0 in every omitted field. -/
def Obligations.AssembledLinesDecode : Prop :=
  (∀ (a : SlaveAddr) (c : Byte), decode (.req (assemble (.wrb a c))) = .ok (.wrb a c 0)) ∧
  (∀ a : SlaveAddr, decode (.req (assemble (.rdb a))) = .ok (.rdb a 0 0)) ∧
  (∀ (a : SlaveAddr) (c d : Byte), decode (.req (assemble (.wrbd a c d))) = .ok (.wrbd a c d)) ∧
  (∀ a : SlaveAddr, decode (.req (assemble (.rdbd a))) = .ok (.rdbd a 0 0)) ∧
  (∀ w : Word, decode (.req (assemble (.unsup w))) = .ok (decodeReq w)) ∧
  assemble (.wrbd 0x50 0x10 0xAB) = 0x025010AB

/-! ### The step and the port -/

/-- In `IDLE` a step takes the oldest waiting word off the port and runs the operation it decodes to. (That words wait
at a port is the model's convention, log entry 5.) -/
def Obligations.StepRunsTheDecodedOperation : Prop :=
  ∀ (s : State) (p : PortWord) (rest : List PortWord) (i : Instr),
    s.phase = .idle → s.input = p :: rest → decode p = .ok i → step s = exec i { s with input := rest }

/-- `withFetchWord` puts a word where the next step takes it. (Log entry 5.) -/
def Obligations.FetchedWordRunsNext : Prop :=
  ∀ (s : State) (nbits w : Nat) (p : PortWord) (i : Instr),
    PortWord.ofBits nbits w = some p → decode p = .ok i →
    step (s.withFetchWord nbits w) = exec i { s with phase := .idle, evt := 0 }

/-- With no word waiting, `IDLE` does nothing (R114). -/
def Obligations.IdleDoesNothingWithoutARequest : Prop :=
  ∀ s : State, s.phase = .idle → s.input = [] → step s = .next s

/-- R36: a transaction in flight goes on by exactly one register event, at the control offset: a write, after which the
control register holds the word written, whose 30 other bits are the shadow's, or a read, which leaves the shadow alone.
That the read leaves the control register alone too is the model's choice (log entry 20), and so is what an event index
past the phase's last does (log entry 15). -/
def Obligations.InFlightStepIsOneEvent : Prop :=
  ∀ s : State, s.phase ≠ .idle →
    ∃ t e, step s = .next t ∧ t.trace = s.trace ++ [e] ∧
      ((∃ v, e = .write s.cfg.ctrlOffset v ∧ t.ctrlReg = v ∧ t.env = s.env ∧
          v &&& s.cfg.otherMask = s.shadow &&& s.cfg.otherMask) ∨
       (∃ w, e = .read s.cfg.ctrlOffset w ∧ t.ctrlReg = s.ctrlReg ∧ t.shadow = s.shadow ∧ Drawn s.env t.env [w]))

/-- R78, R124: a request offered while `PHASE` is not `IDLE` is refused, whichever it is. -/
def Obligations.RequestInFlightIsRefused : Prop :=
  ∀ (s : State) (i : Instr), i.isRequest = true → s.phase ≠ .idle → exec i s = .refused .requestInFlight

/-- R78: acceptance writes the five latches from the request word and sets `PHASE` to `BUSCHK`, changing nothing else;
the request then runs to its result and `PHASE` returns to `IDLE`. (That the latches still hold its fields then is the
model's choice: log entry 21.) -/
def Obligations.AcceptanceLatchesTheRequestWord : Prop :=
  ∀ (s : State) (w : Word), s.phase = .idle →
    accept (reqSize w) (reqDir w) (reqAddr w) (reqCommand w) (reqData w) s =
      { s with tSize := w.extractLsb' 24 8, tDir := if w.getLsbD 23 then .read else .write,
               tAddr := w.extractLsb' 16 7, tCmd := w.extractLsb' 8 8, tData := w.extractLsb' 0 8,
               phase := .buschk, evt := 0 } ∧
    ∃ t, exec (decodeReq w) s = .next t ∧ t.phase = .idle ∧ t.status ≠ none ∧
      Latched t (reqSize w) (reqDir w) (reqAddr w) (reqCommand w) (reqData w)

/-! ### The Line State Controller -/

/-- R58: SETDATA changes the shadow's data bit and nothing else, and performs no register event; it is idempotent. (In
this and the next statements the model's own result field `ret` is left open: `ret := t.ret`.) -/
def Obligations.SetdataChangesOnlyTheDataBit : Prop :=
  ∀ (s : State) (b : Bool), ∃ (t : State) (v : Word),
    exec (.setdata b) s = .next t ∧ t = { s with shadow := v, ret := t.ret } ∧
    v = (if b then s.shadow ||| s.cfg.dataMask else s.shadow &&& ~~~s.cfg.dataMask) ∧
    (∀ k < 32, v.getLsbD k = if k = s.cfg.dataBit then b else s.shadow.getLsbD k) ∧
    exec (.setdata b) t = .next t ∧
    ∀ arg : Byte, arg.getLsbD 0 = b → decode (.prim (packPrim 0 arg)) = .ok (.setdata b)

/-- R59: CLOCKON sets the shadow's clock bit and nothing else, and performs no register event; it is idempotent. -/
def Obligations.ClockonSetsOnlyTheClockBit : Prop :=
  ∀ s : State, ∃ (t : State) (v : Word),
    exec .clockon s = .next t ∧ t = { s with shadow := v, ret := t.ret } ∧ v = s.shadow ||| s.cfg.clockMask ∧
    (∀ k < 32, v.getLsbD k = if k = s.cfg.clockBit then true else s.shadow.getLsbD k) ∧
    exec .clockon t = .next t ∧ ∀ arg : Byte, decode (.prim (packPrim 1 arg)) = .ok .clockon

/-- R60: CLOCKOFF clears the shadow's clock bit and nothing else, and performs no register event; it is idempotent. -/
def Obligations.ClockoffClearsOnlyTheClockBit : Prop :=
  ∀ s : State, ∃ (t : State) (v : Word),
    exec .clockoff s = .next t ∧ t = { s with shadow := v, ret := t.ret } ∧ v = s.shadow &&& ~~~s.cfg.clockMask ∧
    (∀ k < 32, v.getLsbD k = if k = s.cfg.clockBit then false else s.shadow.getLsbD k) ∧
    exec .clockoff t = .next t ∧ ∀ arg : Byte, decode (.prim (packPrim 2 arg)) = .ok .clockoff

/-- R61: COMMIT writes the whole shadow to the control register, as one event, even when it equals the word last
written, and changes no state of the block; each write costs one settle interval. -/
def Obligations.CommitWritesTheWholeShadow : Prop :=
  ∀ (s : State) (arg : Byte), ∃ t u : State,
    exec .commit s = .next t ∧
    t = { s with ctrlReg := s.shadow, trace := s.trace ++ [.write s.cfg.ctrlOffset s.shadow], ret := t.ret } ∧
    exec .commit t = .next u ∧ u = { t with trace := t.trace ++ [.write s.cfg.ctrlOffset s.shadow], ret := u.ret } ∧
    leastDurationUs s.cfg [.write s.cfg.ctrlOffset s.shadow] = s.cfg.settleUs ∧
    decode (.prim (packPrim 3 arg)) = .ok .commit

/-- R62 with R31: READDATALINE sets the data bit, commits, and reads: the scripted answer where there is one, a free
value of the history where there is none (log entry 3); only the data-in bit of it is used. That the read leaves the
window's two registers alone is the model's choice (log entry 20). -/
def Obligations.ReaddatalineReleasesCommitsAndSamples : Prop :=
  ∀ (s : State) (arg : Byte), ∃ v w : Word,
    v = s.shadow ||| s.cfg.dataMask ∧
    exec .readdataline s = .next { s with
      shadow := v, ctrlReg := v, env := s.env.tail, ret := .bit (w.getLsbD s.cfg.dataInBit)
      trace := s.trace ++ [.write s.cfg.ctrlOffset v, .read s.cfg.ctrlOffset w] } ∧
    (∀ x, s.env.head? = some x → w = x) ∧
    (s.env = [] → w = Config.freeRead (s.trace ++ [.write s.cfg.ctrlOffset v])) ∧
    (w.getLsbD s.cfg.dataInBit = true ↔ w &&& s.cfg.dataInMask ≠ 0) ∧
    decode (.prim (packPrim 4 arg)) = .ok .readdataline

/-- R63 (b): shadow operations on different bits commute, and a later SETDATA overrides an earlier one. -/
def Obligations.ShadowOperationsCommuteAndOverride : Prop :=
  ∀ (s : State) (b b' : Bool),
    setData b (clockOn s) = clockOn (setData b s) ∧ setData b (clockOff s) = clockOff (setData b s) ∧
    setData b' (setData b s) = setData b' s ∧ clockOn (clockOff s) = clockOn s ∧ clockOff (clockOn s) = clockOff s

/-! ### The Protocol Engine -/

/-- R66, R67: START's four writes from any entry lines, its exit lines, and that a START-shaped transition occurs
exactly when it is entered with the clock and the data high. -/
def Obligations.StartFollowsItsSequence : Prop :=
  ∀ (s : State) (arg : Byte), ∃ t,
    exec .start s = .next t ∧
    t = { s with
      shadow := s.cfg.withLines s.shadow true false, ctrlReg := s.cfg.withLines s.shadow true false, ret := t.ret
      trace := s.trace ++ [s.cfg.wr s.shadow s.clk s.sdo, s.cfg.wr s.shadow s.clk false,
        s.cfg.wr s.shadow false false, s.cfg.wr s.shadow true false] } ∧
    countShape startShaped (wireTrace s.cfg (startTrace s.cfg s.shadow s.clk s.sdo)) =
      (if s.clk = true ∧ s.sdo = true then 1 else 0) ∧
    decode (.prim (packPrim 5 arg)) = .ok .start

/-- R68: STOP's five writes from any entry lines, its exit lines and its one STOP-shaped transition; a second STOP
leaves the shadow as the first left it, and begins with a START-shaped transition. -/
def Obligations.StopFollowsItsSequenceAndConverges : Prop :=
  ∀ (s : State) (arg : Byte), ∃ t u,
    exec .stop s = .next t ∧
    t = { s with
      shadow := s.cfg.withLines s.shadow true true, ctrlReg := s.cfg.withLines s.shadow true true, ret := t.ret
      trace := s.trace ++ [s.cfg.wr s.shadow s.clk false, s.cfg.wr s.shadow true false, s.cfg.wr s.shadow true true,
        s.cfg.wr s.shadow false true, s.cfg.wr s.shadow true true] } ∧
    countShape stopShaped (wireTrace s.cfg (stopTrace s.cfg s.shadow s.clk)) = 1 ∧
    exec .stop t = .next u ∧ u.shadow = t.shadow ∧
    startShaped (s.cfg.clk t.ctrlReg, s.cfg.sdo t.ctrlReg) (true, false) = true ∧
    u.trace = t.trace ++ [s.cfg.wr s.shadow true false, s.cfg.wr s.shadow true false, s.cfg.wr s.shadow true true,
      s.cfg.wr s.shadow false true, s.cfg.wr s.shadow true true] ∧
    decode (.prim (packPrim 6 arg)) = .ok .stop

/-- R69, R55: READBIT is READDATALINE under the engine's name, done once. (That its read leaves the window's two registers
alone is the model's choice: log entry 20.) -/
def Obligations.ReadbitIsReaddataline : Prop :=
  ∀ (s : State) (arg : Byte), exec .readbit s = exec .readdataline s ∧
    decode (.prim (packPrim 7 arg)) = .ok .readbit ∧
    ∃ t w, Drawn s.env s.env.tail [w] ∧ exec .readbit s = .next t ∧
      t = { s with
        shadow := s.cfg.withLines s.shadow s.clk true, ctrlReg := s.cfg.withLines s.shadow s.clk true
        env := s.env.tail, ret := .bit (s.cfg.sdi w)
        trace := s.trace ++ [s.cfg.wr s.shadow s.clk true, s.cfg.rd w] }

/-- R70: ACKCHECK's events `W11 W11 R(s) W01` from any entry lines; its result and `ACKF` are whether the sample equals
`ACK_SAMPLE`. (That its read leaves the initialisation register alone is the model's choice: log entry 20.) -/
def Obligations.AckcheckSamplesOnceAgainstAckSample : Prop :=
  ∀ (s : State) (arg : Byte), ∃ w : Word, Drawn s.env s.env.tail [w] ∧
    exec .ackcheck s = .next { s with
      shadow := s.cfg.withLines s.shadow false true, ctrlReg := s.cfg.withLines s.shadow false true
      ackF := s.cfg.sdi w == s.cfg.ackSample, ret := .bit (s.cfg.sdi w == s.cfg.ackSample), env := s.env.tail
      trace := s.trace ++ [s.cfg.wr s.shadow true true, s.cfg.wr s.shadow true true, s.cfg.rd w,
        s.cfg.wr s.shadow false true] } ∧
    decode (.prim (packPrim 8 arg)) = .ok .ackcheck

/-- R71, R72: SENDBYTE's eight groups `Wcb W1b W0b`, most significant bit first, the clock `c` of the very first write
being the one it was entered with, then one ACKCHECK whose result is its own. (What `BITIDX` holds afterwards is left
open: log entry 8. That its read leaves the initialisation register alone is the model's choice: log entry 20.) -/
def Obligations.SendbyteSendsEightBitsThenOneAckcheck : Prop :=
  ∀ (s : State) (v : Byte), ∃ (t : State) (w : Word), Drawn s.env s.env.tail [w] ∧
    exec (.sendbyte v) s = .next t ∧
    t = { s with
      shadow := s.cfg.withLines s.shadow false true, ctrlReg := s.cfg.withLines s.shadow false true
      bitIdx := t.bitIdx, ackF := s.cfg.sdi w == s.cfg.ackSample, ret := .bit (s.cfg.sdi w == s.cfg.ackSample)
      env := s.env.tail
      trace := s.trace ++ bitTrace s.cfg s.shadow s.clk (v.getLsbD 7) ++
        [6, 5, 4, 3, 2, 1, 0].flatMap (fun k => bitTrace s.cfg s.shadow false (v.getLsbD k)) ++
        ackTrace s.cfg s.shadow w } ∧
    decode (.prim (packPrim 9 v)) = .ok (.sendbyte v)

/-- R73: READBYTE's trace with its nine samples; the first sample is the byte's bit 7, data bits are not inverted,
and the failure is a bit of its own. (What `BITIDX` holds afterwards is left open: log entry 8. That its reads leave
the initialisation register alone is the model's choice: log entry 20.) -/
def Obligations.ReadbyteSamplesEightBitsThenOneAckcheck : Prop :=
  ∀ (s : State) (arg : Byte), ∃ (t : State) (r : RxDraws) (env : List Word) (b : Byte), Drawn s.env env r.list ∧
    b.getLsbD 7 = s.cfg.sdi r.w7 ∧ b.getLsbD 6 = s.cfg.sdi r.w6 ∧ b.getLsbD 5 = s.cfg.sdi r.w5 ∧
    b.getLsbD 4 = s.cfg.sdi r.w4 ∧ b.getLsbD 3 = s.cfg.sdi r.w3 ∧ b.getLsbD 2 = s.cfg.sdi r.w2 ∧
    b.getLsbD 1 = s.cfg.sdi r.w1 ∧ b.getLsbD 0 = s.cfg.sdi r.w0 ∧
    exec .readbyte s = .next t ∧
    t = { s with
      shadow := s.cfg.withLines s.shadow false true, ctrlReg := s.cfg.withLines s.shadow false true
      bitIdx := t.bitIdx, rxAcc := b, ackF := s.cfg.sdi r.ack == s.cfg.ackSample
      rdFail := s.cfg.sdi r.ack != s.cfg.ackSample, env := env
      ret := .byte (s.cfg.sdi r.ack != s.cfg.ackSample) b
      trace := s.trace ++ readTrace s.cfg s.shadow s.sdo r } ∧
    decode (.prim (packPrim 10 arg)) = .ok .readbyte

/-- R75: BUSBUSY is one READBIT; it reports busy when the sample is 0, whatever `ACK_SAMPLE` is. (That its read
leaves the window's two registers alone is the model's choice: log entry 20.) -/
def Obligations.BusbusyReportsALowLine : Prop :=
  ∀ (s : State) (arg : Byte), ∃ w : Word, Drawn s.env s.env.tail [w] ∧
    exec .busbusy s = .next { s with
      shadow := s.cfg.withLines s.shadow s.clk true, ctrlReg := s.cfg.withLines s.shadow s.clk true
      ret := .bit (s.cfg.sdi w == false), env := s.env.tail
      trace := s.trace ++ [s.cfg.wr s.shadow s.clk true, s.cfg.rd w] } ∧
    decode (.prim (packPrim 11 arg)) = .ok .busbusy

/-- R76 and R127: the register writes and reads of each engine operation, its exit lines, that the control register
then holds the shadow, and the least duration. (That a read leaves the control register alone, and that the settle
interval is a whole number, are the model's choices: log entries 20 and 19.) -/
def Obligations.EngineOperationsCountAndExit : Prop :=
  ∀ (s : State) (i : Instr) (writes reads : Nat) (c d : Bool),
    (i, writes, reads, c, d) ∈ [(Instr.start, 4, 0, true, false), (.stop, 5, 0, true, true),
      (.readbit, 1, 1, s.clk, true), (.ackcheck, 3, 1, false, true), (.readbyte, 28, 9, false, true),
      (.busbusy, 1, 1, s.clk, true)] ∨ (∃ v, i = .sendbyte v ∧ writes = 27 ∧ reads = 1 ∧ c = false ∧ d = true) →
    ∃ t tr, exec i s = .next t ∧ t.trace = s.trace ++ tr ∧ numWrites s.cfg tr = writes ∧ numReads s.cfg tr = reads ∧
      leastDurationUs s.cfg tr = writes * s.cfg.settleUs ∧ t.clk = c ∧ t.sdo = d ∧ t.ctrlReg = t.shadow

/-! ### The adapter -/

/-- R91: WRB by its own pseudocode: result, trace, answers drawn, latches and flags on each of its paths.
(That reads leave the window's two registers alone, and that the latches and flags are kept once the request has ended,
are the model's choices: log entries 20 and 21.) -/
def Obligations.WriteByteFollowsItsRule : Prop :=
  ∀ (s : State) (addr : SlaveAddr) (cmd data : Byte), s.phase = .idle →
    ∃ (t : State) (w0 w1 w2 : Word),
      exec (.wrb addr cmd data) s = .next t ∧ RequestLeaves s t ∧ Latched t sizeByte .write addr cmd data ∧
      let p := s.cfg
      let a := addressByte addr .write
      let head := headTrace s addr .write w0 w1
      let stopped := stopTrace p s.shadow false
      if p.sdi w0 = false then
        Ended s t (.fail .busBusy) s.clk true (sampleTrace p s.shadow s.clk w0) [w0] ∧
          EngineHolds t s.aByte s.bitIdx s.ackF s.rxAcc s.rdFail
      else if p.sdi w1 ≠ p.ackSample then
        Ended s t (.fail .noAckAddress) true true (head ++ stopped) [w0, w1] ∧
          EngineHolds t a t.bitIdx false s.rxAcc s.rdFail
      else
        Ended s t (if p.sdi w2 = p.ackSample then .okWrite else .fail .noAckData) true true
            (head ++ sendTrace p s.shadow false cmd w2 ++ stopped) [w0, w1, w2] ∧
          EngineHolds t a t.bitIdx (p.sdi w2 == p.ackSample) s.rxAcc s.rdFail

/-- R93: WRBD by its own pseudocode: a refused command byte ends the transaction before the data byte.
(That reads leave the window's two registers alone, and that the latches and flags are kept once the request has ended,
are the model's choices: log entries 20 and 21.) -/
def Obligations.WriteByteDataFollowsItsRule : Prop :=
  ∀ (s : State) (addr : SlaveAddr) (cmd data : Byte), s.phase = .idle →
    ∃ (t : State) (w0 w1 w2 w3 : Word),
      exec (.wrbd addr cmd data) s = .next t ∧ RequestLeaves s t ∧ Latched t sizeByteData .write addr cmd data ∧
      let p := s.cfg
      let a := addressByte addr .write
      let head := headTrace s addr .write w0 w1
      let stopped := stopTrace p s.shadow false
      if p.sdi w0 = false then
        Ended s t (.fail .busBusy) s.clk true (sampleTrace p s.shadow s.clk w0) [w0] ∧
          EngineHolds t s.aByte s.bitIdx s.ackF s.rxAcc s.rdFail
      else if p.sdi w1 ≠ p.ackSample then
        Ended s t (.fail .noAckAddress) true true (head ++ stopped) [w0, w1] ∧
          EngineHolds t a t.bitIdx false s.rxAcc s.rdFail
      else if p.sdi w2 ≠ p.ackSample then
        Ended s t (.fail .noAckData) true true (head ++ sendTrace p s.shadow false cmd w2 ++ stopped) [w0, w1, w2] ∧
          EngineHolds t a t.bitIdx false s.rxAcc s.rdFail
      else
        Ended s t (if p.sdi w3 = p.ackSample then .okWrite else .fail .noAckData) true true
            (head ++ sendTrace p s.shadow false cmd w2 ++ sendTrace p s.shadow false data w3 ++ stopped)
            [w0, w1, w2, w3] ∧
          EngineHolds t a t.bitIdx (p.sdi w3 == p.ackSample) s.rxAcc s.rdFail

/-- R92, R94: RDB and RDBD by their pseudocode: no command is sent, STOP comes before the test of the acknowledge, and
a failed read delivers no byte.
(That reads leave the window's two registers alone, and that the latches and flags are kept once the request has ended,
are the model's choices: log entries 20 and 21.) -/
def Obligations.ReadByteFollowsItsRule : Prop :=
  ∀ (s : State) (i : Instr) (size : Byte) (addr : SlaveAddr) (cmd data : Byte), s.phase = .idle →
    (i = .rdb addr cmd data ∧ size = sizeByte ∨ i = .rdbd addr cmd data ∧ size = sizeByteData) →
    ∃ (t : State) (w0 w1 : Word) (r : RxDraws),
      exec i s = .next t ∧ RequestLeaves s t ∧ Latched t size .read addr cmd data ∧
      let p := s.cfg
      let a := addressByte addr .read
      let head := headTrace s addr .read w0 w1
      let stopped := stopTrace p s.shadow false
      if p.sdi w0 = false then
        Ended s t (.fail .busBusy) s.clk true (sampleTrace p s.shadow s.clk w0) [w0] ∧
          EngineHolds t s.aByte s.bitIdx s.ackF s.rxAcc s.rdFail
      else if p.sdi w1 ≠ p.ackSample then
        Ended s t (.fail .noAckAddress) true true (head ++ stopped) [w0, w1] ∧
          EngineHolds t a t.bitIdx false s.rxAcc s.rdFail
      else
        Ended s t (if p.sdi r.ack = p.ackSample then .okRead (r.byte p) else .fail .noAckRead) true true
            (head ++ readTrace p s.shadow true r ++ stopped) ([w0, w1] ++ r.list) ∧
          EngineHolds t a t.bitIdx (p.sdi r.ack == p.ackSample) (r.byte p) (p.sdi r.ack != p.ackSample)

/-- R95, R82, R104: UNSUP performs the bus check and nothing else, and the bus check comes first. (That the
check's read leaves the window's two registers alone, and that the latches are kept afterwards, are the model's choices:
log entries 20 and 21.) -/
def Obligations.UnsupportedFollowsItsRule : Prop :=
  ∀ (s : State) (size : Byte) (dir : Dir) (addr : SlaveAddr) (cmd data : Byte), s.phase = .idle →
    size ≠ sizeByte → size ≠ sizeByteData →
    ∃ (t : State) (w0 : Word),
      exec (.unsup size dir addr cmd data) s = .next t ∧ RequestLeaves s t ∧ Latched t size dir addr cmd data ∧
      Ended s t (if s.cfg.sdi w0 = false then .fail .busBusy else .fail .unsupported) s.clk true
        (sampleTrace s.cfg s.shadow s.clk w0) [w0] ∧
      EngineHolds t s.aByte s.bitIdx s.ackF s.rxAcc s.rdFail

/-- R80, R81: every request begins with BUSBUSY's write and read; when the sample is 0 the request ends there with
`BUS_BUSY`, the clock not moved, and on idle lines the wires see no transition. -/
def Obligations.BusyBusEndsEveryRequestAtOnce : Prop :=
  ∀ (s : State) (i : Instr), i.isRequest = true → i.wf = true → s.phase = .idle →
    ∃ (t : State) (w : Word) (tr : List Event),
      exec i s = .next t ∧ t.trace = s.trace ++ (s.cfg.wr s.shadow s.clk true :: s.cfg.rd w :: tr) ∧
      (s.cfg.sdi w = false →
        tr = [] ∧ t.status = some (.fail .busBusy) ∧ t.phase = .idle ∧ t.clk = s.clk ∧
        (s.clk = true → mergeAfter (true, true) ([s.cfg.wr s.shadow s.clk true, s.cfg.rd w].filterMap (linesOf s.cfg))
          = [])) ∧
      (s.cfg.sdi w = true → t.status ≠ some (.fail .busBusy))

/-- R103: the result a request ends in is one the table allows it. -/
def Obligations.ResultsStayInTheirTable : Prop :=
  ∀ (s : State) (i : Instr), i.isRequest = true → i.wf = true → s.phase = .idle →
    ∃ t r, exec i s = .next t ∧ t.status = some r ∧ mayEndIn i r = true

/-- R103: every result the table allows does occur, for some answers of the environment. -/
def Obligations.EveryResultOfTheTableOccurs : Prop :=
  ∀ (s : State) (i : Instr) (r : Result), i.isRequest = true → i.wf = true → s.phase = .idle → mayEndIn i r = true →
    ∃ (env : List Word) (t : State), exec i { s with env := env } = .next t ∧ t.status = some r

/-- R103: the result "is a function of the request and of the samples the environment returns, and of nothing else". -/
def Obligations.ResultDependsOnSamplesOnly : Prop :=
  ∀ (s s' : State) (i : Instr), i.isRequest = true → i.wf = true → s.phase = .idle → s'.phase = .idle →
    11 ≤ s.env.length → s'.env.length = s.env.length → s.cfg.ackSample = s'.cfg.ackSample →
    s.env.map s.cfg.sdi = s'.env.map s'.cfg.sdi →
    ∃ t t', exec i s = .next t ∧ exec i s' = .next t' ∧ t.status = t'.status

/-- R46: fields a request does not use change nothing but the latches that hold them. (That the latches are
kept afterwards is the model's choice: log entry 21.) -/
def Obligations.IgnoredFieldsChangeNothing : Prop :=
  ∀ (s : State) (addr addr' : SlaveAddr) (cmd cmd' data data' : Byte), s.phase = .idle →
    (∃ t, exec (.wrb addr cmd data) s = .next t ∧ exec (.wrb addr cmd data') s = .next { t with tData := data' }) ∧
    (∃ t, exec (.rdb addr cmd data) s = .next t ∧
      exec (.rdb addr cmd' data') s = .next { t with tCmd := cmd', tData := data' }) ∧
    (∃ t, exec (.rdbd addr cmd data) s = .next t ∧
      exec (.rdbd addr cmd' data') s = .next { t with tCmd := cmd', tData := data' }) ∧
    ∀ (size : Byte) (dir dir' : Dir), size ≠ sizeByte → size ≠ sizeByteData →
      ∃ t, exec (.unsup size dir addr cmd data) s = .next t ∧
        exec (.unsup size dir' addr' cmd' data') s =
          .next { t with tDir := dir', tAddr := addr', tCmd := cmd', tData := data' }

/-- R85, R94: RDB and RDBD behave identically; only the latched size differs. (That the latches are kept afterwards is the
model's choice: log entry 21.) -/
def Obligations.ReadShapesBehaveAlike : Prop :=
  ∀ (s : State) (addr : SlaveAddr) (cmd data : Byte), s.phase = .idle →
    ∃ t, exec (.rdb addr cmd data) s = .next t ∧
      exec (.rdbd addr cmd data) s = .next { t with tSize := sizeByteData }

/-- R89, R107: after any `access` from the idle state, successful or failed, the state is the idle state again: the
shadow holds `SHADOW_INIT`, as after reset, and so does the control register. (That a read leaves the control register
alone is the model's choice: log entry 20.) -/
def Obligations.EveryAccessEndsIdle : Prop :=
  ∀ (s : State) (i : Instr), i.isRequest = true → i.wf = true → Idle s → EnableBitsKept s →
    ∃ t, exec i s = .next t ∧ Idle t ∧ t.shadow = s.cfg.shadowInit ∧ t.ctrlReg = s.cfg.shadowInit

/-- R96, R90, R130: the register writes and reads of an `access` by outcome, and its bounds of 91 and 11. -/
def Obligations.AccessCountsByOutcome : Prop :=
  ∀ (s : State) (i : Instr), i.isRequest = true → i.wf = true → s.phase = .idle →
    ∃ t tr r, exec i s = .next t ∧ t.trace = s.trace ++ tr ∧ t.status = some r ∧
      countsAllowed i r (numWrites s.cfg tr) (numReads s.cfg tr) ∧ numWrites s.cfg tr ≤ 91 ∧ numReads s.cfg tr ≤ 11

/-- R120, R72, R123: the data/clock rule as the sequences keep it: one START-shaped transition if START was performed;
one STOP-shaped one in its STOP, and one more exactly when `T_ADDR` is `0x40` or above; every other change of the data
bit is made with the clock low before and after, or is the one write that raises both lines. -/
def Obligations.DataMovesOnlyAsTheSequencesAllow : Prop :=
  ∀ (s : State) (i : Instr), i.isRequest = true → i.wf = true → Idle s →
    ∃ t tr r, exec i s = .next t ∧ t.trace = s.trace ++ tr ∧ t.status = some r ∧
      countShape startShaped (wireTrace s.cfg tr) = (if startPerformed r then 1 else 0) ∧
      countShape stopShaped (wireTrace s.cfg tr) =
        (if startPerformed r then (if 0x40 ≤ (reqAddrOf i).toNat then 2 else 1) else 0) ∧
      allSteps dataMoveAllowed (wireTrace s.cfg tr) = true

/-- The source's worked example (spec/95_test_vectors.md X1): the request word `0x025010AB` against a target that
always acknowledges sends the bytes `0xA0`, `0x10`, `0xAB` and succeeds. -/
def Obligations.WorkedExampleSucceeds : Prop :=
  ∀ (s : State) (w0 w1 w2 w3 : Word) (rest : List PortWord),
    Idle s → s.cfg.ackSample = true → s.input = .req 0x025010AB :: rest → s.env = [w0, w1, w2, w3] →
    s.cfg.sdi w0 = true → s.cfg.sdi w1 = true → s.cfg.sdi w2 = true → s.cfg.sdi w3 = true →
    ∃ t, step s = .next t ∧ t.status = some .okWrite ∧
      t.trace = s.trace ++ sampleTrace s.cfg s.shadow true w0 ++ startTrace s.cfg s.shadow true true ++
        sendTrace s.cfg s.shadow true 0xA0 w1 ++ sendTrace s.cfg s.shadow false 0x10 w2 ++
        sendTrace s.cfg s.shadow false 0xAB w3 ++ stopTrace s.cfg s.shadow false

/-- The round-trip law (spec/95_test_vectors.md X2), in the form the block supports: a target that acknowledges every
byte and answers a read with the last data byte written to it gives that byte back, for every address and byte. -/
def Obligations.WrittenByteReadsBack : Prop :=
  ∀ (s : State) (a : SlaveAddr) (c v : Byte) (read : Asm) (hi ack : Word) (bitWord : Bool → Word),
    s.phase = .idle → (read = .rdb a ∨ read = .rdbd a) →
    s.input = [.req (assemble (.wrbd a c v)), .req (assemble read)] →
    s.cfg.sdi hi = true → s.cfg.sdi ack = s.cfg.ackSample → (∀ b, s.cfg.sdi (bitWord b) = b) →
    s.env = [hi, ack, ack, ack] ++ [hi, ack] ++ ([7, 6, 5, 4, 3, 2, 1, 0].map fun k => bitWord (v.getLsbD k)) ++ [ack] →
    ∃ t u, step s = .next t ∧ t.status = some .okWrite ∧ step t = .next u ∧ u.status = some (.okRead v)

/-! ### Reset, invariants and whole-machine rules -/

/-- R116, R117: reset leaves the shadow at `SHADOW_INIT` with both lines high, `PHASE` idle, the initialisation register
written once, no control-register write and no read. (Where the spec gives a register no reset value none is claimed.) -/
def Obligations.ResetLeavesTheIdleState : Prop :=
  ∀ p : Params,
    let s := State.resetWith p
    s.cfg = p ∧ s.shadow = p.shadowInit ∧ Idle s ∧ s.initReg = p.initValue ∧
    s.trace = [.write p.initOffset p.initValue] ∧ numWrites p s.trace = 0 ∧ numReads p s.trace = 0 ∧
    State.reset = State.resetWith Config.params

/-- R116: "the control register is not written until the first request's bus-busy check, whose COMMIT writes
`SHADOW_INIT`". -/
def Obligations.FirstRequestCommitsShadowInit : Prop :=
  ∀ (p : Params) (i : Instr) (env : List Word), i.isRequest = true → i.wf = true →
    ∃ t w tr, exec i { State.resetWith p with env := env } = .next t ∧
      t.trace = .write p.initOffset p.initValue :: .write p.ctrlOffset p.shadowInit :: .read p.ctrlOffset w :: tr

/-- R11: every step of every operation, and every event of a transaction in flight, keeps the 30 other bits of the
shadow, and of every word written to the control register, at those of `SHADOW_INIT`. -/
def Obligations.EveryStepKeepsTheEnableBits : Prop :=
  ∀ s t : State, EnableBitsKept s → step s = .next t → EnableBitsKept t

/-- R11 at reset. -/
def Obligations.ResetKeepsTheEnableBits : Prop := EnableBitsKept State.reset

/-- R12: the initialisation register is never touched again after the reset write: no step writes it again. (That
reads at the control offset leave what it holds alone is the model's choice: log entry 20.) -/
def Obligations.EveryStepLeavesTheInitRegister : Prop :=
  ∀ s t : State, InitWrittenOnce s → step s = .next t → InitWrittenOnce t

/-- R12 at reset. -/
def Obligations.ResetWritesTheInitRegisterOnce : Prop := InitWrittenOnce State.reset

/-- R21 (a), R28: once a COMMIT was made the control register holds the word last written, after every step. (That
a read leaves it alone is the model's choice: log entry 20.) -/
def Obligations.EveryStepKeepsTheLastWrite : Prop :=
  ∀ s t : State, CtrlHoldsLastWrite s → step s = .next t → CtrlHoldsLastWrite t

/-- R21 (a) at reset: no COMMIT was made. -/
def Obligations.ResetHasNoCommittedWord : Prop :=
  CtrlHoldsLastWrite State.reset ∧ lastCtrlWrite State.reset.cfg State.reset.trace = none

/-- R76, R64, R107, R32: from a state in order - only requests wait, the lines stand where the sequences put them -
a step is never refused and leaves a state in order; so the exit lines of each operation are the entry lines of the
next, and `IDLE` always means clock and data high. (Where the shadow's lines stand between two events of one phase is
the model's choice, log entry 11, the event index in `IDLE` is log entry 15's, and the port log entry 5's.) -/
def Obligations.EveryStepStaysInOrder : Prop := ∀ s : State, InOrder s → ∃ t, step s = .next t ∧ InOrder t

/-- Reset is in order. (That no word waits and that the event index is 0 are the model's choices: log entries 5
and 15.) -/
def Obligations.ResetIsInOrder : Prop := InOrder State.reset

/-- R11, R32, R115: no run of a host's requests is ever refused or loses the enable bits. (`InOrder` at the end of the run
says where the shadow's lines stand between two events of one phase too, which is the model's choice, log entry 11; the
event index in `IDLE` is log entry 15's, and the port log entry 5's.) -/
def Obligations.EveryRunOfRequestsIsSafe : Prop :=
  ∀ (k : Nat) (s : State), InOrder s → EnableBitsKept s → ∃ t, SafeRun k s t ∧ InOrder t

/-- R20: no step changes the parameters, and the trace only grows. -/
def Obligations.ParametersStayAndTheTraceGrows : Prop :=
  ∀ s t : State, step s = .next t → t.cfg = s.cfg ∧ ∃ tr, t.trace = s.trace ++ tr

/-- R19 (spec/92_eei_decisions.md D18): "a model may step event by event or take a whole `access` as one step ... the
two agree": from the accepted request, as many one-event steps as the `access` has events lead to the state `exec`
gives, on the same answers. (The latches and flags of that state are the model's: log entries 11 and 21.) -/
def Obligations.EventStepsAgreeWithTheWholeAccess : Prop :=
  ∀ (s : State) (size : Byte) (dir : Dir) (addr : SlaveAddr) (cmd data : Byte), s.phase = .idle →
    ∃ t n, exec (decodeReq (packReq size dir addr cmd data)) s = .next t ∧
      Host.Core.run Sys2Proof.core n (accept size dir addr cmd data s) = .next t ∧
      t.trace.length = s.trace.length + n

/-- R130: no transaction hangs: from any state in flight at most 95 one-event steps reach `IDLE`, whatever the answers. -/
def Obligations.EveryTransactionEnds : Prop :=
  ∀ s : State, s.phase ≠ .idle → ∃ n t, n ≤ 95 ∧ Host.Core.run Sys2Proof.core n s = .next t ∧
    (show State from t).phase = .idle
end

