-- ==== Sys2Proof/Laws/Lines.lean ====
section
/-! SUPPORT. The algebra of the two line bits of a control word: what setting one of them does to each bit, and that a
word is determined by its line bits and its other 30 bits (spec/10_state.md R11). -/

namespace Sys2Proof

variable (p : Params) (w : Word)

theorem Params.getLsbD_setSdo (b : Bool) (i : Nat) (hi : i < 32) :
    (p.setSdo w b).getLsbD i = if i = p.dataBit then b else w.getLsbD i := by
  unfold Params.setSdo Params.dataMask
  by_cases h : i = p.dataBit.val
  · subst h; cases b <;> simp
  · have h' : p.dataBit.val ≠ i := fun e => h e.symm
    cases b <;> simp_all

theorem Params.getLsbD_setClk (b : Bool) (i : Nat) (hi : i < 32) :
    (p.setClk w b).getLsbD i = if i = p.clockBit then b else w.getLsbD i := by
  unfold Params.setClk Params.clockMask
  by_cases h : i = p.clockBit.val
  · subst h; cases b <;> simp
  · have h' : p.clockBit.val ≠ i := fun e => h e.symm
    cases b <;> simp_all

theorem Params.bit_positions_differ : p.dataBit.val ≠ p.clockBit.val := fun h => p.bits_differ (Fin.ext h)

theorem Params.getLsbD_withLines (c d : Bool) (i : Nat) (hi : i < 32) :
    (p.withLines w c d).getLsbD i =
      if i = p.clockBit then c else if i = p.dataBit then d else w.getLsbD i := by
  simp [Params.withLines, p.getLsbD_setClk _ _ _ hi, p.getLsbD_setSdo _ _ _ hi]

@[simp] theorem Params.clk_withLines (c d : Bool) : p.clk (p.withLines w c d) = c := by
  rw [Params.clk, p.getLsbD_withLines _ _ _ _ p.clockBit.isLt, if_pos rfl]

@[simp] theorem Params.sdo_withLines (c d : Bool) : p.sdo (p.withLines w c d) = d := by
  rw [Params.sdo, p.getLsbD_withLines _ _ _ _ p.dataBit.isLt, if_neg p.bit_positions_differ, if_pos rfl]

@[simp] theorem Params.withLines_withLines (c d c' d' : Bool) :
    p.withLines (p.withLines w c d) c' d' = p.withLines w c' d' := by
  apply BitVec.eq_of_getLsbD_eq; intro i hi
  simp only [p.getLsbD_withLines _ _ _ _ hi]; split_ifs <;> rfl

@[simp] theorem Params.withLines_self : p.withLines w (p.clk w) (p.sdo w) = w := by
  apply BitVec.eq_of_getLsbD_eq; intro i hi
  simp only [p.getLsbD_withLines _ _ _ _ hi]; split_ifs with h1 h2 <;> simp_all [Params.clk, Params.sdo]

@[simp] theorem Params.setSdo_withLines (c d b : Bool) : p.setSdo (p.withLines w c d) b = p.withLines w c b := by
  have := p.bit_positions_differ
  apply BitVec.eq_of_getLsbD_eq; intro i hi
  simp only [p.getLsbD_withLines _ _ _ _ hi, p.getLsbD_setSdo _ _ _ hi]; split_ifs <;> simp_all

@[simp] theorem Params.setClk_withLines (c d b : Bool) : p.setClk (p.withLines w c d) b = p.withLines w b d := by
  apply BitVec.eq_of_getLsbD_eq; intro i hi
  simp only [p.getLsbD_withLines _ _ _ _ hi, p.getLsbD_setClk _ _ _ hi]; split_ifs <;> rfl

theorem Params.setSdo_eq_withLines (b : Bool) : p.setSdo w b = p.withLines w (p.clk w) b := by
  conv_lhs => rw [← p.withLines_self w]
  exact p.setSdo_withLines w _ _ b

theorem Params.setClk_eq_withLines (b : Bool) : p.setClk w b = p.withLines w b (p.sdo w) := by
  conv_lhs => rw [← p.withLines_self w]
  exact p.setClk_withLines w _ _ b

theorem Params.getLsbD_otherMask (i : Nat) (hi : i < 32) :
    p.otherMask.getLsbD i = (decide (i ≠ p.clockBit) && decide (i ≠ p.dataBit)) := by
  simp [Params.otherMask, Params.clockMask, Params.dataMask, hi]

/-- Setting line bits leaves the other 30 bits alone. R11. -/
@[simp] theorem Params.withLines_and_otherMask (c d : Bool) :
    p.withLines w c d &&& p.otherMask = w &&& p.otherMask := by
  apply BitVec.eq_of_getLsbD_eq; intro i hi
  simp only [BitVec.getLsbD_and, p.getLsbD_withLines _ _ _ _ hi, p.getLsbD_otherMask _ hi]
  split_ifs with h1 h2 <;> simp_all

/-- Words that agree outside the line bits give the same four words. R11. -/
theorem Params.withLines_congr {w w' : Word} (h : w &&& p.otherMask = w' &&& p.otherMask) (c d : Bool) :
    p.withLines w c d = p.withLines w' c d := by
  apply BitVec.eq_of_getLsbD_eq; intro i hi
  simp only [p.getLsbD_withLines _ _ _ _ hi]
  split_ifs with h1 h2
  · rfl
  · rfl
  · have := congrArg (·.getLsbD i) h
    simpa [BitVec.getLsbD_and, p.getLsbD_otherMask _ hi, h1, h2] using this

/-- The data-in bit as a bit of the word. R62. -/
theorem Params.sdi_eq_getLsbD : p.sdi w = w.getLsbD p.dataInBit := by
  unfold Params.sdi Params.dataInMask
  rw [BitVec.and_twoPow]
  cases w.getLsbD p.dataInBit <;> simp
  intro e
  have := congrArg (·.getLsbD p.dataInBit.val) e
  simp at this

end Sys2Proof
end

