-- ==== Sys2Proof/Laws/State.lean ====
section
/-! SUPPORT. What each update of the state does to each field, one lemma apiece, so that no proof unfolds a record
update. -/

namespace Sys2Proof.Machine

variable (s : State)

@[simp] theorem setData_cfg (b : Bool) : (setData b s).cfg = s.cfg := rfl
@[simp] theorem setData_shadow (b : Bool) : (setData b s).shadow = s.cfg.setSdo s.shadow b := rfl
@[simp] theorem setData_phase (b : Bool) : (setData b s).phase = s.phase := rfl
@[simp] theorem setData_evt (b : Bool) : (setData b s).evt = s.evt := rfl
@[simp] theorem setData_tSize (b : Bool) : (setData b s).tSize = s.tSize := rfl
@[simp] theorem setData_tDir (b : Bool) : (setData b s).tDir = s.tDir := rfl
@[simp] theorem setData_tAddr (b : Bool) : (setData b s).tAddr = s.tAddr := rfl
@[simp] theorem setData_tCmd (b : Bool) : (setData b s).tCmd = s.tCmd := rfl
@[simp] theorem setData_tData (b : Bool) : (setData b s).tData = s.tData := rfl
@[simp] theorem setData_aByte (b : Bool) : (setData b s).aByte = s.aByte := rfl
@[simp] theorem setData_rxAcc (b : Bool) : (setData b s).rxAcc = s.rxAcc := rfl
@[simp] theorem setData_bitIdx (b : Bool) : (setData b s).bitIdx = s.bitIdx := rfl
@[simp] theorem setData_ackF (b : Bool) : (setData b s).ackF = s.ackF := rfl
@[simp] theorem setData_rdFail (b : Bool) : (setData b s).rdFail = s.rdFail := rfl
@[simp] theorem setData_status (b : Bool) : (setData b s).status = s.status := rfl
@[simp] theorem setData_ctrlReg (b : Bool) : (setData b s).ctrlReg = s.ctrlReg := rfl
@[simp] theorem setData_initReg (b : Bool) : (setData b s).initReg = s.initReg := rfl
@[simp] theorem setData_ret (b : Bool) : (setData b s).ret = s.ret := rfl
@[simp] theorem setData_input (b : Bool) : (setData b s).input = s.input := rfl
@[simp] theorem setData_env (b : Bool) : (setData b s).env = s.env := rfl
@[simp] theorem setData_trace (b : Bool) : (setData b s).trace = s.trace := rfl

@[simp] theorem clockOn_cfg : (clockOn s).cfg = s.cfg := rfl
@[simp] theorem clockOn_shadow : (clockOn s).shadow = s.cfg.setClk s.shadow true := rfl
@[simp] theorem clockOn_phase : (clockOn s).phase = s.phase := rfl
@[simp] theorem clockOn_evt : (clockOn s).evt = s.evt := rfl
@[simp] theorem clockOn_tSize : (clockOn s).tSize = s.tSize := rfl
@[simp] theorem clockOn_tDir : (clockOn s).tDir = s.tDir := rfl
@[simp] theorem clockOn_tAddr : (clockOn s).tAddr = s.tAddr := rfl
@[simp] theorem clockOn_tCmd : (clockOn s).tCmd = s.tCmd := rfl
@[simp] theorem clockOn_tData : (clockOn s).tData = s.tData := rfl
@[simp] theorem clockOn_aByte : (clockOn s).aByte = s.aByte := rfl
@[simp] theorem clockOn_rxAcc : (clockOn s).rxAcc = s.rxAcc := rfl
@[simp] theorem clockOn_bitIdx : (clockOn s).bitIdx = s.bitIdx := rfl
@[simp] theorem clockOn_ackF : (clockOn s).ackF = s.ackF := rfl
@[simp] theorem clockOn_rdFail : (clockOn s).rdFail = s.rdFail := rfl
@[simp] theorem clockOn_status : (clockOn s).status = s.status := rfl
@[simp] theorem clockOn_ctrlReg : (clockOn s).ctrlReg = s.ctrlReg := rfl
@[simp] theorem clockOn_initReg : (clockOn s).initReg = s.initReg := rfl
@[simp] theorem clockOn_ret : (clockOn s).ret = s.ret := rfl
@[simp] theorem clockOn_input : (clockOn s).input = s.input := rfl
@[simp] theorem clockOn_env : (clockOn s).env = s.env := rfl
@[simp] theorem clockOn_trace : (clockOn s).trace = s.trace := rfl

@[simp] theorem clockOff_cfg : (clockOff s).cfg = s.cfg := rfl
@[simp] theorem clockOff_shadow : (clockOff s).shadow = s.cfg.setClk s.shadow false := rfl
@[simp] theorem clockOff_phase : (clockOff s).phase = s.phase := rfl
@[simp] theorem clockOff_evt : (clockOff s).evt = s.evt := rfl
@[simp] theorem clockOff_tSize : (clockOff s).tSize = s.tSize := rfl
@[simp] theorem clockOff_tDir : (clockOff s).tDir = s.tDir := rfl
@[simp] theorem clockOff_tAddr : (clockOff s).tAddr = s.tAddr := rfl
@[simp] theorem clockOff_tCmd : (clockOff s).tCmd = s.tCmd := rfl
@[simp] theorem clockOff_tData : (clockOff s).tData = s.tData := rfl
@[simp] theorem clockOff_aByte : (clockOff s).aByte = s.aByte := rfl
@[simp] theorem clockOff_rxAcc : (clockOff s).rxAcc = s.rxAcc := rfl
@[simp] theorem clockOff_bitIdx : (clockOff s).bitIdx = s.bitIdx := rfl
@[simp] theorem clockOff_ackF : (clockOff s).ackF = s.ackF := rfl
@[simp] theorem clockOff_rdFail : (clockOff s).rdFail = s.rdFail := rfl
@[simp] theorem clockOff_status : (clockOff s).status = s.status := rfl
@[simp] theorem clockOff_ctrlReg : (clockOff s).ctrlReg = s.ctrlReg := rfl
@[simp] theorem clockOff_initReg : (clockOff s).initReg = s.initReg := rfl
@[simp] theorem clockOff_ret : (clockOff s).ret = s.ret := rfl
@[simp] theorem clockOff_input : (clockOff s).input = s.input := rfl
@[simp] theorem clockOff_env : (clockOff s).env = s.env := rfl
@[simp] theorem clockOff_trace : (clockOff s).trace = s.trace := rfl

@[simp] theorem commit_cfg : (commit s).cfg = s.cfg := rfl
@[simp] theorem commit_shadow : (commit s).shadow = s.shadow := rfl
@[simp] theorem commit_phase : (commit s).phase = s.phase := rfl
@[simp] theorem commit_evt : (commit s).evt = s.evt := rfl
@[simp] theorem commit_tSize : (commit s).tSize = s.tSize := rfl
@[simp] theorem commit_tDir : (commit s).tDir = s.tDir := rfl
@[simp] theorem commit_tAddr : (commit s).tAddr = s.tAddr := rfl
@[simp] theorem commit_tCmd : (commit s).tCmd = s.tCmd := rfl
@[simp] theorem commit_tData : (commit s).tData = s.tData := rfl
@[simp] theorem commit_aByte : (commit s).aByte = s.aByte := rfl
@[simp] theorem commit_rxAcc : (commit s).rxAcc = s.rxAcc := rfl
@[simp] theorem commit_bitIdx : (commit s).bitIdx = s.bitIdx := rfl
@[simp] theorem commit_ackF : (commit s).ackF = s.ackF := rfl
@[simp] theorem commit_rdFail : (commit s).rdFail = s.rdFail := rfl
@[simp] theorem commit_status : (commit s).status = s.status := rfl
@[simp] theorem commit_ctrlReg : (commit s).ctrlReg = s.shadow := rfl
@[simp] theorem commit_initReg : (commit s).initReg = s.initReg := rfl
@[simp] theorem commit_ret : (commit s).ret = s.ret := rfl
@[simp] theorem commit_input : (commit s).input = s.input := rfl
@[simp] theorem commit_env : (commit s).env = s.env := rfl
@[simp] theorem commit_trace : (commit s).trace = s.trace ++ [.write s.cfg.ctrlOffset s.shadow] := rfl

@[simp] theorem memRead_cfg (r : WinReg) : ((memRead r s).2).cfg = s.cfg := rfl
@[simp] theorem memRead_shadow (r : WinReg) : ((memRead r s).2).shadow = s.shadow := rfl
@[simp] theorem memRead_phase (r : WinReg) : ((memRead r s).2).phase = s.phase := rfl
@[simp] theorem memRead_evt (r : WinReg) : ((memRead r s).2).evt = s.evt := rfl
@[simp] theorem memRead_tSize (r : WinReg) : ((memRead r s).2).tSize = s.tSize := rfl
@[simp] theorem memRead_tDir (r : WinReg) : ((memRead r s).2).tDir = s.tDir := rfl
@[simp] theorem memRead_tAddr (r : WinReg) : ((memRead r s).2).tAddr = s.tAddr := rfl
@[simp] theorem memRead_tCmd (r : WinReg) : ((memRead r s).2).tCmd = s.tCmd := rfl
@[simp] theorem memRead_tData (r : WinReg) : ((memRead r s).2).tData = s.tData := rfl
@[simp] theorem memRead_aByte (r : WinReg) : ((memRead r s).2).aByte = s.aByte := rfl
@[simp] theorem memRead_rxAcc (r : WinReg) : ((memRead r s).2).rxAcc = s.rxAcc := rfl
@[simp] theorem memRead_bitIdx (r : WinReg) : ((memRead r s).2).bitIdx = s.bitIdx := rfl
@[simp] theorem memRead_ackF (r : WinReg) : ((memRead r s).2).ackF = s.ackF := rfl
@[simp] theorem memRead_rdFail (r : WinReg) : ((memRead r s).2).rdFail = s.rdFail := rfl
@[simp] theorem memRead_status (r : WinReg) : ((memRead r s).2).status = s.status := rfl
@[simp] theorem memRead_ctrlReg (r : WinReg) : ((memRead r s).2).ctrlReg = s.ctrlReg := rfl
@[simp] theorem memRead_initReg (r : WinReg) : ((memRead r s).2).initReg = s.initReg := rfl
@[simp] theorem memRead_ret (r : WinReg) : ((memRead r s).2).ret = s.ret := rfl
@[simp] theorem memRead_input (r : WinReg) : ((memRead r s).2).input = s.input := rfl
@[simp] theorem memRead_env (r : WinReg) : ((memRead r s).2).env = s.env.tail := rfl
@[simp] theorem memRead_trace (r : WinReg) : ((memRead r s).2).trace = s.trace ++ [.read (r.offset s.cfg) (answer s.env s.trace)] := rfl
@[simp] theorem memRead_word (r : WinReg) : (memRead r s).1 = answer s.env s.trace := rfl

@[simp] theorem returnWith_cfg (r : OpReturn) : (returnWith r s).cfg = s.cfg := rfl
@[simp] theorem returnWith_shadow (r : OpReturn) : (returnWith r s).shadow = s.shadow := rfl
@[simp] theorem returnWith_phase (r : OpReturn) : (returnWith r s).phase = s.phase := rfl
@[simp] theorem returnWith_evt (r : OpReturn) : (returnWith r s).evt = s.evt := rfl
@[simp] theorem returnWith_tSize (r : OpReturn) : (returnWith r s).tSize = s.tSize := rfl
@[simp] theorem returnWith_tDir (r : OpReturn) : (returnWith r s).tDir = s.tDir := rfl
@[simp] theorem returnWith_tAddr (r : OpReturn) : (returnWith r s).tAddr = s.tAddr := rfl
@[simp] theorem returnWith_tCmd (r : OpReturn) : (returnWith r s).tCmd = s.tCmd := rfl
@[simp] theorem returnWith_tData (r : OpReturn) : (returnWith r s).tData = s.tData := rfl
@[simp] theorem returnWith_aByte (r : OpReturn) : (returnWith r s).aByte = s.aByte := rfl
@[simp] theorem returnWith_rxAcc (r : OpReturn) : (returnWith r s).rxAcc = s.rxAcc := rfl
@[simp] theorem returnWith_bitIdx (r : OpReturn) : (returnWith r s).bitIdx = s.bitIdx := rfl
@[simp] theorem returnWith_ackF (r : OpReturn) : (returnWith r s).ackF = s.ackF := rfl
@[simp] theorem returnWith_rdFail (r : OpReturn) : (returnWith r s).rdFail = s.rdFail := rfl
@[simp] theorem returnWith_status (r : OpReturn) : (returnWith r s).status = s.status := rfl
@[simp] theorem returnWith_ctrlReg (r : OpReturn) : (returnWith r s).ctrlReg = s.ctrlReg := rfl
@[simp] theorem returnWith_initReg (r : OpReturn) : (returnWith r s).initReg = s.initReg := rfl
@[simp] theorem returnWith_ret (r : OpReturn) : (returnWith r s).ret = r := rfl
@[simp] theorem returnWith_input (r : OpReturn) : (returnWith r s).input = s.input := rfl
@[simp] theorem returnWith_env (r : OpReturn) : (returnWith r s).env = s.env := rfl
@[simp] theorem returnWith_trace (r : OpReturn) : (returnWith r s).trace = s.trace := rfl

@[simp] theorem accept_cfg (z : Byte) (d : Dir) (a : SlaveAddr) (c v : Byte) : (accept z d a c v s).cfg = s.cfg := rfl
@[simp] theorem accept_shadow (z : Byte) (d : Dir) (a : SlaveAddr) (c v : Byte) : (accept z d a c v s).shadow = s.shadow := rfl
@[simp] theorem accept_phase (z : Byte) (d : Dir) (a : SlaveAddr) (c v : Byte) : (accept z d a c v s).phase = .buschk := rfl
@[simp] theorem accept_evt (z : Byte) (d : Dir) (a : SlaveAddr) (c v : Byte) : (accept z d a c v s).evt = 0 := rfl
@[simp] theorem accept_tSize (z : Byte) (d : Dir) (a : SlaveAddr) (c v : Byte) : (accept z d a c v s).tSize = z := rfl
@[simp] theorem accept_tDir (z : Byte) (d : Dir) (a : SlaveAddr) (c v : Byte) : (accept z d a c v s).tDir = d := rfl
@[simp] theorem accept_tAddr (z : Byte) (d : Dir) (a : SlaveAddr) (c v : Byte) : (accept z d a c v s).tAddr = a := rfl
@[simp] theorem accept_tCmd (z : Byte) (d : Dir) (a : SlaveAddr) (c v : Byte) : (accept z d a c v s).tCmd = c := rfl
@[simp] theorem accept_tData (z : Byte) (d : Dir) (a : SlaveAddr) (c v : Byte) : (accept z d a c v s).tData = v := rfl
@[simp] theorem accept_aByte (z : Byte) (d : Dir) (a : SlaveAddr) (c v : Byte) : (accept z d a c v s).aByte = s.aByte := rfl
@[simp] theorem accept_rxAcc (z : Byte) (d : Dir) (a : SlaveAddr) (c v : Byte) : (accept z d a c v s).rxAcc = s.rxAcc := rfl
@[simp] theorem accept_bitIdx (z : Byte) (d : Dir) (a : SlaveAddr) (c v : Byte) : (accept z d a c v s).bitIdx = s.bitIdx := rfl
@[simp] theorem accept_ackF (z : Byte) (d : Dir) (a : SlaveAddr) (c v : Byte) : (accept z d a c v s).ackF = s.ackF := rfl
@[simp] theorem accept_rdFail (z : Byte) (d : Dir) (a : SlaveAddr) (c v : Byte) : (accept z d a c v s).rdFail = s.rdFail := rfl
@[simp] theorem accept_status (z : Byte) (d : Dir) (a : SlaveAddr) (c v : Byte) : (accept z d a c v s).status = s.status := rfl
@[simp] theorem accept_ctrlReg (z : Byte) (d : Dir) (a : SlaveAddr) (c v : Byte) : (accept z d a c v s).ctrlReg = s.ctrlReg := rfl
@[simp] theorem accept_initReg (z : Byte) (d : Dir) (a : SlaveAddr) (c v : Byte) : (accept z d a c v s).initReg = s.initReg := rfl
@[simp] theorem accept_ret (z : Byte) (d : Dir) (a : SlaveAddr) (c v : Byte) : (accept z d a c v s).ret = s.ret := rfl
@[simp] theorem accept_input (z : Byte) (d : Dir) (a : SlaveAddr) (c v : Byte) : (accept z d a c v s).input = s.input := rfl
@[simp] theorem accept_env (z : Byte) (d : Dir) (a : SlaveAddr) (c v : Byte) : (accept z d a c v s).env = s.env := rfl
@[simp] theorem accept_trace (z : Byte) (d : Dir) (a : SlaveAddr) (c v : Byte) : (accept z d a c v s).trace = s.trace := rfl

@[simp] theorem finish_cfg (r : Result) : (finish r s).cfg = s.cfg := rfl
@[simp] theorem finish_shadow (r : Result) : (finish r s).shadow = s.shadow := rfl
@[simp] theorem finish_phase (r : Result) : (finish r s).phase = .idle := rfl
@[simp] theorem finish_evt (r : Result) : (finish r s).evt = 0 := rfl
@[simp] theorem finish_tSize (r : Result) : (finish r s).tSize = s.tSize := rfl
@[simp] theorem finish_tDir (r : Result) : (finish r s).tDir = s.tDir := rfl
@[simp] theorem finish_tAddr (r : Result) : (finish r s).tAddr = s.tAddr := rfl
@[simp] theorem finish_tCmd (r : Result) : (finish r s).tCmd = s.tCmd := rfl
@[simp] theorem finish_tData (r : Result) : (finish r s).tData = s.tData := rfl
@[simp] theorem finish_aByte (r : Result) : (finish r s).aByte = s.aByte := rfl
@[simp] theorem finish_rxAcc (r : Result) : (finish r s).rxAcc = s.rxAcc := rfl
@[simp] theorem finish_bitIdx (r : Result) : (finish r s).bitIdx = s.bitIdx := rfl
@[simp] theorem finish_ackF (r : Result) : (finish r s).ackF = s.ackF := rfl
@[simp] theorem finish_rdFail (r : Result) : (finish r s).rdFail = s.rdFail := rfl
@[simp] theorem finish_status (r : Result) : (finish r s).status = some r := rfl
@[simp] theorem finish_ctrlReg (r : Result) : (finish r s).ctrlReg = s.ctrlReg := rfl
@[simp] theorem finish_initReg (r : Result) : (finish r s).initReg = s.initReg := rfl
@[simp] theorem finish_ret (r : Result) : (finish r s).ret = s.ret := rfl
@[simp] theorem finish_input (r : Result) : (finish r s).input = s.input := rfl
@[simp] theorem finish_env (r : Result) : (finish r s).env = s.env := rfl
@[simp] theorem finish_trace (r : Result) : (finish r s).trace = s.trace := rfl

@[simp] theorem failWith_cfg (c : FailCode) : (failWith c s).cfg = s.cfg := rfl
@[simp] theorem failWith_shadow (c : FailCode) : (failWith c s).shadow = s.shadow := rfl
@[simp] theorem failWith_phase (c : FailCode) : (failWith c s).phase = .idle := rfl
@[simp] theorem failWith_evt (c : FailCode) : (failWith c s).evt = 0 := rfl
@[simp] theorem failWith_tSize (c : FailCode) : (failWith c s).tSize = s.tSize := rfl
@[simp] theorem failWith_tDir (c : FailCode) : (failWith c s).tDir = s.tDir := rfl
@[simp] theorem failWith_tAddr (c : FailCode) : (failWith c s).tAddr = s.tAddr := rfl
@[simp] theorem failWith_tCmd (c : FailCode) : (failWith c s).tCmd = s.tCmd := rfl
@[simp] theorem failWith_tData (c : FailCode) : (failWith c s).tData = s.tData := rfl
@[simp] theorem failWith_aByte (c : FailCode) : (failWith c s).aByte = s.aByte := rfl
@[simp] theorem failWith_rxAcc (c : FailCode) : (failWith c s).rxAcc = s.rxAcc := rfl
@[simp] theorem failWith_bitIdx (c : FailCode) : (failWith c s).bitIdx = s.bitIdx := rfl
@[simp] theorem failWith_ackF (c : FailCode) : (failWith c s).ackF = s.ackF := rfl
@[simp] theorem failWith_rdFail (c : FailCode) : (failWith c s).rdFail = s.rdFail := rfl
@[simp] theorem failWith_status (c : FailCode) : (failWith c s).status = some (.fail c) := rfl
@[simp] theorem failWith_ctrlReg (c : FailCode) : (failWith c s).ctrlReg = s.ctrlReg := rfl
@[simp] theorem failWith_initReg (c : FailCode) : (failWith c s).initReg = s.initReg := rfl
@[simp] theorem failWith_ret (c : FailCode) : (failWith c s).ret = s.ret := rfl
@[simp] theorem failWith_input (c : FailCode) : (failWith c s).input = s.input := rfl
@[simp] theorem failWith_env (c : FailCode) : (failWith c s).env = s.env := rfl
@[simp] theorem failWith_trace (c : FailCode) : (failWith c s).trace = s.trace := rfl

@[simp] theorem enter_cfg (p : Phase) : (enter p s).cfg = s.cfg := rfl
@[simp] theorem enter_shadow (p : Phase) : (enter p s).shadow = s.shadow := rfl
@[simp] theorem enter_phase (p : Phase) : (enter p s).phase = p := rfl
@[simp] theorem enter_evt (p : Phase) : (enter p s).evt = 0 := rfl
@[simp] theorem enter_tSize (p : Phase) : (enter p s).tSize = s.tSize := rfl
@[simp] theorem enter_tDir (p : Phase) : (enter p s).tDir = s.tDir := rfl
@[simp] theorem enter_tAddr (p : Phase) : (enter p s).tAddr = s.tAddr := rfl
@[simp] theorem enter_tCmd (p : Phase) : (enter p s).tCmd = s.tCmd := rfl
@[simp] theorem enter_tData (p : Phase) : (enter p s).tData = s.tData := rfl
@[simp] theorem enter_aByte (p : Phase) : (enter p s).aByte = s.aByte := rfl
@[simp] theorem enter_rxAcc (p : Phase) : (enter p s).rxAcc = s.rxAcc := rfl
@[simp] theorem enter_bitIdx (p : Phase) : (enter p s).bitIdx = s.bitIdx := rfl
@[simp] theorem enter_ackF (p : Phase) : (enter p s).ackF = s.ackF := rfl
@[simp] theorem enter_rdFail (p : Phase) : (enter p s).rdFail = s.rdFail := rfl
@[simp] theorem enter_status (p : Phase) : (enter p s).status = s.status := rfl
@[simp] theorem enter_ctrlReg (p : Phase) : (enter p s).ctrlReg = s.ctrlReg := rfl
@[simp] theorem enter_initReg (p : Phase) : (enter p s).initReg = s.initReg := rfl
@[simp] theorem enter_ret (p : Phase) : (enter p s).ret = s.ret := rfl
@[simp] theorem enter_input (p : Phase) : (enter p s).input = s.input := rfl
@[simp] theorem enter_env (p : Phase) : (enter p s).env = s.env := rfl
@[simp] theorem enter_trace (p : Phase) : (enter p s).trace = s.trace := rfl

@[simp] theorem nextEvent_cfg : (nextEvent s).cfg = s.cfg := rfl
@[simp] theorem nextEvent_shadow : (nextEvent s).shadow = s.shadow := rfl
@[simp] theorem nextEvent_phase : (nextEvent s).phase = s.phase := rfl
@[simp] theorem nextEvent_evt : (nextEvent s).evt = s.evt + 1 := rfl
@[simp] theorem nextEvent_tSize : (nextEvent s).tSize = s.tSize := rfl
@[simp] theorem nextEvent_tDir : (nextEvent s).tDir = s.tDir := rfl
@[simp] theorem nextEvent_tAddr : (nextEvent s).tAddr = s.tAddr := rfl
@[simp] theorem nextEvent_tCmd : (nextEvent s).tCmd = s.tCmd := rfl
@[simp] theorem nextEvent_tData : (nextEvent s).tData = s.tData := rfl
@[simp] theorem nextEvent_aByte : (nextEvent s).aByte = s.aByte := rfl
@[simp] theorem nextEvent_rxAcc : (nextEvent s).rxAcc = s.rxAcc := rfl
@[simp] theorem nextEvent_bitIdx : (nextEvent s).bitIdx = s.bitIdx := rfl
@[simp] theorem nextEvent_ackF : (nextEvent s).ackF = s.ackF := rfl
@[simp] theorem nextEvent_rdFail : (nextEvent s).rdFail = s.rdFail := rfl
@[simp] theorem nextEvent_status : (nextEvent s).status = s.status := rfl
@[simp] theorem nextEvent_ctrlReg : (nextEvent s).ctrlReg = s.ctrlReg := rfl
@[simp] theorem nextEvent_initReg : (nextEvent s).initReg = s.initReg := rfl
@[simp] theorem nextEvent_ret : (nextEvent s).ret = s.ret := rfl
@[simp] theorem nextEvent_input : (nextEvent s).input = s.input := rfl
@[simp] theorem nextEvent_env : (nextEvent s).env = s.env := rfl
@[simp] theorem nextEvent_trace : (nextEvent s).trace = s.trace := rfl

@[simp] theorem offset_ctrl (p : Params) : WinReg.offset p .ctrl = p.ctrlOffset := rfl
@[simp] theorem offset_init (p : Params) : WinReg.offset p .init = p.initOffset := rfl
@[simp] theorem answer_cons (w : Word) (ws : List Word) (h : List Event) : answer (w :: ws) h = w := rfl
@[simp] theorem answer_nil (h : List Event) : answer [] h = Config.freeRead h := rfl

end Sys2Proof.Machine
end

