-- ==== Sys2Proof/Laws/Engine.lean ====
section
/-! SUPPORT. What each operation of the Line State Controller and of the Protocol Engine can do, in one equation apiece
(spec/41_protocol_engine.md R76): its result, the shadow it leaves, the trace it adds and the answers it draws. Later
proofs cite these and do not unfold the operations. -/

namespace Sys2Proof.Machine

variable (s : State)

/-- The event of a write of line bits, unfolded. -/
theorem wr_def (p : Params) (base : Word) (c d : Bool) :
    p.wr base c d = .write p.ctrlOffset (p.withLines base c d) := rfl

/-- Events depend on the base word through its other 30 bits only. R11. -/
@[simp] theorem wr_withLines (p : Params) (base : Word) (c d c' d' : Bool) :
    p.wr (p.withLines base c d) c' d' = p.wr base c' d' := by simp [wr_def]

theorem commit_eq : commit s =
    { s with ctrlReg := s.shadow, trace := s.trace ++ [s.cfg.wr s.shadow s.clk s.sdo] } := by
  simp [commit, memWrite, wr_def, State.clk, State.sdo, WinReg.offset]

theorem setData_eq (b : Bool) : setData b s = { s with shadow := s.cfg.withLines s.shadow s.clk b } := by
  simp [setData, Params.setSdo_eq_withLines, State.clk]

theorem clockOn_eq : clockOn s = { s with shadow := s.cfg.withLines s.shadow true s.sdo } := by
  simp [clockOn, Params.setClk_eq_withLines, State.sdo]

theorem clockOff_eq : clockOff s = { s with shadow := s.cfg.withLines s.shadow false s.sdo } := by
  simp [clockOff, Params.setClk_eq_withLines, State.sdo]

/-- The state after writing line bits (`c`, `d`) as the last event of a trace `tr`. -/
def State.settled (s : State) (c d : Bool) (tr : List Event) : State :=
  { s with
    shadow := s.cfg.withLines s.shadow c d
    ctrlReg := s.cfg.withLines s.shadow c d
    trace := s.trace ++ tr }

theorem start_eq : start s = s.settled true false (startTrace s.cfg s.shadow s.clk s.sdo) := by
  simp [start, commit_eq, setData_eq, clockOn_eq, clockOff_eq, State.settled, startTrace, State.clk, State.sdo]

theorem stop_eq : stop s = s.settled true true (stopTrace s.cfg s.shadow s.clk) := by
  simp [stop, commit_eq, setData_eq, clockOn_eq, clockOff_eq, State.settled, stopTrace, State.clk, State.sdo]

/-- The answer READDATALINE draws. -/
def sampleAnswer (s : State) : Word := answer s.env (s.trace ++ [s.cfg.wr s.shadow s.clk true])

theorem readDataLine_eq : readDataLine s =
    (s.cfg.sdi (sampleAnswer s),
     { s.settled s.clk true (sampleTrace s.cfg s.shadow s.clk (sampleAnswer s)) with env := s.env.tail }) := by
  simp [readDataLine, memRead, commit_eq, setData_eq, State.settled, sampleTrace, sampleAnswer, Params.rd, State.clk,
    State.sdo]

/-- The answer ACKCHECK draws. -/
def ackAnswer (s : State) : Word :=
  answer s.env (s.trace ++ [s.cfg.wr s.shadow true true, s.cfg.wr s.shadow true true])

theorem ackCheck_eq : ackCheck s =
    (ackFlag s.cfg (s.cfg.sdi (ackAnswer s)),
     { s.settled false true (ackTrace s.cfg s.shadow (ackAnswer s)) with
       env := s.env.tail, ackF := ackFlag s.cfg (s.cfg.sdi (ackAnswer s)) }) := by
  simp [ackCheck, readDataLine_eq, commit_eq, setData_eq, clockOn_eq, clockOff_eq, State.settled, sampleTrace, ackTrace,
    sampleAnswer, ackAnswer, State.clk, State.sdo]

theorem sendBit_eq (v : Byte) (i : Fin 8) : sendBit v i s =
    { s.settled false (v.getLsbD i) (bitTrace s.cfg s.shadow s.clk (v.getLsbD i)) with bitIdx := i } := by
  simp [sendBit, bitToSend, commit_eq, setData_eq, clockOn_eq, clockOff_eq, State.settled, bitTrace, State.clk,
    State.sdo]

theorem sendBits_eq (v : Byte) : sendBits v 8 s =
    { s.settled false (v.getLsbD 0) (sendBitsTrace s.cfg s.shadow s.clk v) with bitIdx := 0 } := by
  simp [sendBits, sendBit_eq, State.settled, sendBitsTrace, bitTrace, State.clk]

/-- The answer SENDBYTE draws. -/
def sendAnswer (v : Byte) (s : State) : Word :=
  answer s.env (s.trace ++ sendBitsTrace s.cfg s.shadow s.clk v ++
    [s.cfg.wr s.shadow true true, s.cfg.wr s.shadow true true])

theorem sendByte_eq (v : Byte) : sendByte v s =
    (ackFlag s.cfg (s.cfg.sdi (sendAnswer v s)),
     { s.settled false true (sendTrace s.cfg s.shadow s.clk v (sendAnswer v s)) with
       env := s.env.tail, bitIdx := 0, ackF := ackFlag s.cfg (s.cfg.sdi (sendAnswer v s)) }) := by
  simp [sendByte, ackCheck_eq, sendBits_eq, State.settled, sendTrace, ackTrace, sendAnswer, ackAnswer]

/-- The answer one bit of READBYTE draws. -/
def rxAnswer (s : State) : Word :=
  answer s.env (s.trace ++ [s.cfg.wr s.shadow s.clk s.sdo, s.cfg.wr s.shadow true true])

theorem receiveBit_eq (i : Fin 8) (h : s.clk = false) : receiveBit i s =
    { s with
      shadow := s.cfg.withLines s.shadow false true
      ctrlReg := s.cfg.withLines s.shadow true true
      trace := s.trace ++ rxBitTrace s.cfg s.shadow s.sdo (rxAnswer s)
      env := s.env.tail
      bitIdx := i
      rxAcc := accumulate s.rxAcc (s.cfg.sdi (rxAnswer s)) i } := by
  simp [receiveBit, readBit, readDataLine_eq, commit_eq, clockOn_eq, clockOff_eq, State.settled, sampleTrace,
    rxBitTrace, sampleAnswer, rxAnswer, State.clk, State.sdo] at h ⊢
  simp [h]

/-- An answer is drawn as the environment rule says. R31. -/
theorem drawn_answer (env : List Word) (h : List Event) : Drawn env env.tail [answer env h] := by
  cases env <;> simp [Drawn]

theorem Drawn.append {a b c : List Word} {ws vs : List Word} (h : Drawn a b ws) (h' : Drawn b c vs) :
    Drawn a c (ws ++ vs) := by
  induction ws generalizing a with
  | nil => simp only [Drawn] at h; subst h; simpa using h'
  | cons w ws ih => exact ⟨h.1, ih h.2⟩

/-- Where the script is long enough the answers are the script's. -/
theorem drawn_scripted {before after ws : List Word} (h : Drawn before after ws) (hl : ws.length ≤ before.length) :
    before = ws ++ after := by
  induction ws generalizing before with
  | nil => simpa [Drawn] using h.symm
  | cons w ws ih =>
    cases before with
    | nil => simp at hl
    | cons x xs =>
      simp only [Drawn, List.head?_cons, Option.some.injEq, forall_eq', List.tail_cons] at h
      simp only [List.length_cons, Nat.add_le_add_iff_right] at hl
      rw [h.1, List.cons_append, ← ih h.2 hl]

/-- Eight accumulated bits, most significant first. R73. -/
theorem accumulate_eight (a b c d e f g h : Bool) :
    accumulate (accumulate (accumulate (accumulate (accumulate (accumulate (accumulate (accumulate 0 a 7) b 6) c 5)
      d 4) e 3) f 2) g 1) h 0 = BitVec.ofBoolListBE [a, b, c, d, e, f, g, h] := by
  revert a b c d e f g h
  decide

/-- The state inside READBYTE's loop after a bit: the clock-off is pending, the wires are at (1, 1). R73. -/
def State.receiving (s : State) (env : List Word) (acc : Byte) (i : Fin 8) (tr : List Event) : State :=
  { s with
    shadow := s.cfg.withLines s.shadow false true
    ctrlReg := s.cfg.withLines s.shadow true true
    trace := s.trace ++ tr
    env := env
    bitIdx := i
    rxAcc := acc }

theorem receiveBit_first : ∃ w, Drawn s.env s.env.tail [w] ∧
    receiveBit 7 { commit (clockOff s) with rxAcc := 0 } =
      s.receiving s.env.tail (accumulate 0 (s.cfg.sdi w) 7) 7
        ([s.cfg.wr s.shadow false s.sdo] ++ rxBitTrace s.cfg s.shadow s.sdo w) := by
  refine ⟨rxAnswer { commit (clockOff s) with rxAcc := 0 }, drawn_answer s.env _, ?_⟩
  rw [receiveBit_eq _ _ (by simp [clockOff_eq, State.clk])]
  simp [State.receiving, clockOff_eq, commit_eq, rxAnswer, rxBitTrace, State.clk, State.sdo]

theorem receiveBit_next (env : List Word) (acc : Byte) (j i : Fin 8) (tr : List Event) :
    ∃ w, Drawn env env.tail [w] ∧
      receiveBit i (s.receiving env acc j tr) =
        s.receiving env.tail (accumulate acc (s.cfg.sdi w) i) i (tr ++ rxBitTrace s.cfg s.shadow true w) := by
  refine ⟨rxAnswer (s.receiving env acc j tr), drawn_answer env _, ?_⟩
  rw [receiveBit_eq _ _ (by simp [State.receiving, State.clk])]
  simp [State.receiving, rxAnswer, rxBitTrace, State.clk, State.sdo]

/-- READBYTE: its nine draws give its result and its trace. R73. -/
theorem readByte_spec : ∃ (r : RxDraws) (env : List Word), Drawn s.env env r.list ∧
    readByte s =
      ((!ackFlag s.cfg (s.cfg.sdi r.ack), r.byte s.cfg),
       { s.settled false true (readTrace s.cfg s.shadow s.sdo r) with
         env := env, bitIdx := 0, rxAcc := r.byte s.cfg, ackF := ackFlag s.cfg (s.cfg.sdi r.ack),
         rdFail := !ackFlag s.cfg (s.cfg.sdi r.ack) }) := by
  obtain ⟨w7, d7, e7⟩ := receiveBit_first s
  obtain ⟨w6, d6, e6⟩ := receiveBit_next s _ _ 7 6 _
  obtain ⟨w5, d5, e5⟩ := receiveBit_next s _ _ 6 5 _
  obtain ⟨w4, d4, e4⟩ := receiveBit_next s _ _ 5 4 _
  obtain ⟨w3, d3, e3⟩ := receiveBit_next s _ _ 4 3 _
  obtain ⟨w2, d2, e2⟩ := receiveBit_next s _ _ 3 2 _
  obtain ⟨w1, d1, e1⟩ := receiveBit_next s _ _ 2 1 _
  obtain ⟨w0, d0, e0⟩ := receiveBit_next s _ _ 1 0 _
  have hl : receiveBits 8 { commit (clockOff s) with rxAcc := 0 } = _ :=
    (congrArg (receiveBits 7) e7).trans <| (congrArg (receiveBits 6) e6).trans <|
    (congrArg (receiveBits 5) e5).trans <| (congrArg (receiveBits 4) e4).trans <|
    (congrArg (receiveBits 3) e3).trans <| (congrArg (receiveBits 2) e2).trans <|
    (congrArg (receiveBits 1) e1).trans <| (congrArg (receiveBits 0) e0).trans rfl
  refine ⟨⟨w7, w6, w5, w4, w3, w2, w1, w0, ackAnswer (receiveBits 8 { commit (clockOff s) with rxAcc := 0 })⟩,
    (receiveBits 8 { commit (clockOff s) with rxAcc := 0 }).env.tail, ?_, ?_⟩
  rotate_left
  · rw [readByte, hl, ackCheck_eq]
    simp only [accumulate_eight]
    simp [receiveBits, State.receiving, State.settled, readTrace, ackTrace, RxDraws.byte, rdFailFlag]
  · exact d7.append <| d6.append <| d5.append <| d4.append <| d3.append <| d2.append <| d1.append <| d0.append <|
      drawn_answer _ _

end Sys2Proof.Machine
end

