-- ==== Sys2Proof/Laws/Adapter.lean ====
section
/-! SUPPORT. The bus check, the byte sends and the paths of `access`, with the answers they draw as witnesses
(spec/42_smbus_adapter.md R79 to R89). -/

namespace Sys2Proof.Machine

variable (s : State)

/-- BUSBUSY with its draw. R75. -/
theorem busBusy_spec : ∃ w, Drawn s.env s.env.tail [w] ∧
    busBusy s = (!s.cfg.sdi w,
      { s.settled s.clk true (sampleTrace s.cfg s.shadow s.clk w) with env := s.env.tail }) :=
  ⟨sampleAnswer s, drawn_answer _ _, by simp [busBusy, readBit, readDataLine_eq, busyFlag]⟩

/-- The state after a SENDBYTE that drew `w`. R71. -/
def State.sent (s : State) (v : Byte) (w : Word) : State :=
  { s.settled false true (sendTrace s.cfg s.shadow s.clk v w) with
    env := s.env.tail, bitIdx := 0, ackF := s.cfg.sdi w == s.cfg.ackSample }

/-- SENDBYTE with its draw. R71. -/
theorem sendByte_spec (v : Byte) : ∃ w, Drawn s.env s.env.tail [w] ∧
    sendByte v s = (s.cfg.sdi w == s.cfg.ackSample, s.sent v w) :=
  ⟨sendAnswer v s, drawn_answer _ _, by simp [sendByte_eq, ackFlag, State.sent]⟩

/-- The state after START and the address byte, drawn answer `w`. R83, R84. -/
def State.addressed (s : State) (w : Word) : State :=
  { s.settled false true
      (startTrace s.cfg s.shadow s.clk s.sdo ++
        sendTrace s.cfg s.shadow true (addressByte s.tAddr s.tDir) w) with
    env := s.env.tail, bitIdx := 0, ackF := s.cfg.sdi w == s.cfg.ackSample, aByte := addressByte s.tAddr s.tDir }

/-- The bits of a byte sent depend on the base word through its other 30 bits only. R11. -/
@[simp] theorem sendTrace_withLines (p : Params) (base : Word) (c d c' : Bool) (v : Byte) (w : Word) :
    sendTrace p (p.withLines base c d) c' v w = sendTrace p base c' v w := by
  simp [sendTrace, sendBitsTrace, bitTrace, ackTrace]

@[simp] theorem stopTrace_withLines (p : Params) (base : Word) (c d c' : Bool) :
    stopTrace p (p.withLines base c d) c' = stopTrace p base c' := by simp [stopTrace]

@[simp] theorem startTrace_withLines (p : Params) (base : Word) (c d c' d' : Bool) :
    startTrace p (p.withLines base c d) c' d' = startTrace p base c' d' := by simp [startTrace]

@[simp] theorem sampleTrace_withLines (p : Params) (base : Word) (c d c' : Bool) (w : Word) :
    sampleTrace p (p.withLines base c d) c' w = sampleTrace p base c' w := by simp [sampleTrace]

@[simp] theorem readTrace_withLines (p : Params) (base : Word) (c d d' : Bool) (r : RxDraws) :
    readTrace p (p.withLines base c d) d' r = readTrace p base d' r := by
  simp [readTrace, rxBitTrace, ackTrace]

/-- START and the address byte with its draw. R84. -/
theorem address_spec : ∃ w, Drawn s.env s.env.tail [w] ∧
    sendByte (addressByte s.tAddr s.tDir) (start { s with aByte := addressByte s.tAddr s.tDir }) =
      (s.cfg.sdi w == s.cfg.ackSample, s.addressed w) := by
  obtain ⟨w, hw, e⟩ := sendByte_spec (start { s with aByte := addressByte s.tAddr s.tDir })
    (addressByte s.tAddr s.tDir)
  refine ⟨w, by simpa [start_eq, State.settled] using hw, ?_⟩
  rw [e]
  simp [start_eq, State.sent, State.addressed, State.settled, State.clk, State.sdo]

/-- STOP after an acknowledge slot, where the clock is off. R68. -/
theorem stop_eq_of_clk (h : s.clk = false) : stop s = s.settled true true (stopTrace s.cfg s.shadow false) := by
  rw [stop_eq, h]

@[simp] theorem sent_clk (v : Byte) (w : Word) : (s.sent v w).clk = false := by
  simp [State.sent, State.settled, State.clk]

@[simp] theorem sent_sdo (v : Byte) (w : Word) : (s.sent v w).sdo = true := by
  simp [State.sent, State.settled, State.sdo]

@[simp] theorem addressed_clk (w : Word) : (s.addressed w).clk = false := by
  simp [State.addressed, State.settled, State.clk]

@[simp] theorem addressed_sdo (w : Word) : (s.addressed w).sdo = true := by
  simp [State.addressed, State.settled, State.sdo]

/-- The state after BUSBUSY that drew `w`. R75. -/
def State.checked (s : State) (w : Word) : State :=
  { s.settled s.clk true (sampleTrace s.cfg s.shadow s.clk w) with env := s.env.tail }

/-- `access` by its first test. R80, R82. -/
theorem access_cases : ∃ w, Drawn s.env s.env.tail [w] ∧
    ((s.cfg.sdi w = false ∧ access s = failWith .busBusy (s.checked w)) ∨
     (s.cfg.sdi w = true ∧ sizeUnsupported s.tSize = true ∧ access s = failWith .unsupported (s.checked w)) ∨
     (s.cfg.sdi w = true ∧ sizeUnsupported s.tSize = false ∧ access s = transact (s.checked w))) := by
  obtain ⟨w, hw, e⟩ := busBusy_spec s
  refine ⟨w, hw, ?_⟩
  cases h : s.cfg.sdi w <;> cases h' : sizeUnsupported s.tSize <;> simp [access, e, h, h', State.checked, State.settled]

/-- `transact` by its address byte. R84, R85. -/
theorem transact_cases : ∃ w, Drawn s.env s.env.tail [w] ∧
    ((s.cfg.sdi w ≠ s.cfg.ackSample ∧ transact s = stopAndFail .noAckAddress (s.addressed w)) ∨
     (s.cfg.sdi w = s.cfg.ackSample ∧ s.tDir = .read ∧ transact s = readPath (s.addressed w)) ∨
     (s.cfg.sdi w = s.cfg.ackSample ∧ s.tDir = .write ∧ transact s = writePath (s.addressed w))) := by
  obtain ⟨w, hw, e⟩ := address_spec s
  refine ⟨w, hw, ?_⟩
  have hd : (s.addressed w).tDir = s.tDir := rfl
  simp only [transact, e, hd]
  by_cases h : s.cfg.sdi w = s.cfg.ackSample
  · cases h' : s.tDir <;> simp [h]
  · simp [h]

/-- The write path by its command byte. R87, R88. -/
theorem writePath_cases : ∃ w, Drawn s.env s.env.tail [w] ∧
    ((s.cfg.sdi w ≠ s.cfg.ackSample ∧ writePath s = stopAndFail .noAckData (s.sent s.tCmd w)) ∨
     (s.cfg.sdi w = s.cfg.ackSample ∧ s.tSize ≠ sizeByteData ∧
        writePath s = finish .okWrite (stop (s.sent s.tCmd w))) ∨
     (s.cfg.sdi w = s.cfg.ackSample ∧ s.tSize = sizeByteData ∧ ∃ w', Drawn s.env.tail s.env.tail.tail [w'] ∧
        ((s.cfg.sdi w' ≠ s.cfg.ackSample ∧
            writePath s = stopAndFail .noAckData ((s.sent s.tCmd w).sent s.tData w')) ∨
         (s.cfg.sdi w' = s.cfg.ackSample ∧
            writePath s = finish .okWrite (stop ((s.sent s.tCmd w).sent s.tData w')))))) := by
  obtain ⟨w, hw, e⟩ := sendByte_spec s s.tCmd
  obtain ⟨w', hw', e'⟩ := sendByte_spec (s.sent s.tCmd w) s.tData
  have hz : (s.sent s.tCmd w).tSize = s.tSize := rfl
  have hv : (s.sent s.tCmd w).tData = s.tData := rfl
  have hc : (s.sent s.tCmd w).cfg = s.cfg := rfl
  rw [hc] at e'
  refine ⟨w, hw, ?_⟩
  by_cases h : s.cfg.sdi w = s.cfg.ackSample
  · refine .inr ?_
    by_cases h' : s.tSize = sizeByteData
    · refine .inr ⟨h, h', w', hw', ?_⟩
      by_cases h'' : s.cfg.sdi w' = s.cfg.ackSample <;> simp [writePath, e, e', hz, hv, h, h', h'']
    · exact .inl ⟨h, h', by simp [writePath, e, hz, h, h']⟩
  · exact .inl ⟨h, by simp [writePath, e, h]⟩

/-- The read path with its draws. R86. -/
theorem readPath_spec (hd : s.sdo = true) :
    ∃ (r : RxDraws) (env : List Word), Drawn s.env env r.list ∧
      readPath s =
        finish (if s.cfg.sdi r.ack = s.cfg.ackSample then .okRead (r.byte s.cfg) else .fail .noAckRead)
          { s.settled true true (readTrace s.cfg s.shadow true r ++ stopTrace s.cfg s.shadow false) with
            env := env, bitIdx := 0, rxAcc := r.byte s.cfg, ackF := s.cfg.sdi r.ack == s.cfg.ackSample,
            rdFail := s.cfg.sdi r.ack != s.cfg.ackSample } := by
  obtain ⟨r, env, hr, e⟩ := readByte_spec s
  refine ⟨r, env, hr, ?_⟩
  simp only [readPath, e]
  rw [stop_eq_of_clk _ (by simp [State.settled, State.clk])]
  by_cases h' : s.cfg.sdi r.ack = s.cfg.ackSample <;>
    simp [h', hd, ackFlag, State.settled, failWith, bne]

/-- A request offered in `IDLE` is accepted and run. R78. -/
theorem request_idle (h : s.phase = .idle) (z : Byte) (d : Dir) (a : SlaveAddr) (c v : Byte) :
    request z d a c v s = .next (access (accept z d a c v s)) := by simp [request, h]

/-- A request offered in any other phase is refused. R78, R124. -/
theorem request_inFlight (h : s.phase ≠ .idle) (z : Byte) (d : Dir) (a : SlaveAddr) (c v : Byte) :
    request z d a c v s = .refused .requestInFlight := by simp [request, h]

end Sys2Proof.Machine
end

