-- ==== Sys2Proof/Laws/Encoding.lean ====
section
/-! SUPPORT. The bits of the words of spec/30_encoding.md and the fields read from them. -/

namespace Sys2Proof

theorem Dir.getLsbD_bit (d : Dir) (j : Nat) : d.bit.getLsbD j = (decide (j = 0) && decide (d = .read)) := by
  cases d <;> cases j <;> simp [Dir.bit]

@[simp] theorem Dir.ofBit_bit (d : Dir) : Dir.ofBit d.bit = d := by cases d <;> rfl

@[simp] theorem Dir.bit_ofBit (b : BitVec 1) : (Dir.ofBit b).bit = b := by revert b; decide

/-- Each bit of a request word. R42. -/
theorem getLsbD_packReq (z : Byte) (d : Dir) (a : SlaveAddr) (c v : Byte) (i : Nat) :
    (packReq z d a c v).getLsbD i =
      if i < 8 then v.getLsbD i else if i < 16 then c.getLsbD (i - 8) else if i < 23 then a.getLsbD (i - 16)
      else if i = 23 then decide (d = .read) else z.getLsbD (i - 24) := by
  show (z ++ d.bit ++ a ++ c ++ v : BitVec (8 + 1 + 7 + 8 + 8)).getLsbD i = _
  rw [BitVec.getLsbD_append, BitVec.getLsbD_append, BitVec.getLsbD_append, BitVec.getLsbD_append, Dir.getLsbD_bit]
  split_ifs <;> first | rfl | omega | (simp; omega)

/-- Each bit of a micro-operation word. R52. -/
theorem getLsbD_packPrim (op : BitVec 4) (arg : Byte) (i : Nat) :
    (packPrim op arg).getLsbD i = if i < 8 then arg.getLsbD i else op.getLsbD (i - 8) := by
  show (op ++ arg : BitVec (4 + 8)).getLsbD i = _
  rw [BitVec.getLsbD_append]

@[simp] theorem reqSize_packReq (z : Byte) (d : Dir) (a : SlaveAddr) (c v : Byte) : reqSize (packReq z d a c v) = z := by
  apply BitVec.eq_of_getLsbD_eq; intro i hi
  rw [reqSize, BitVec.getLsbD_extractLsb', getLsbD_packReq]
  split_ifs <;> first | omega | simp [hi]

@[simp] theorem reqDir_packReq (z : Byte) (d : Dir) (a : SlaveAddr) (c v : Byte) : reqDir (packReq z d a c v) = d := by
  have : (packReq z d a c v).extractLsb' 23 1 = d.bit := by
    apply BitVec.eq_of_getLsbD_eq; intro i hi
    rw [BitVec.getLsbD_extractLsb', getLsbD_packReq, Dir.getLsbD_bit]
    have : i = 0 := by omega
    subst this; simp
  rw [reqDir, this, Dir.ofBit_bit]

@[simp] theorem reqAddr_packReq (z : Byte) (d : Dir) (a : SlaveAddr) (c v : Byte) : reqAddr (packReq z d a c v) = a := by
  apply BitVec.eq_of_getLsbD_eq; intro i hi
  rw [reqAddr, BitVec.getLsbD_extractLsb', getLsbD_packReq]
  split_ifs <;> first | omega | simp [hi]

@[simp] theorem reqCommand_packReq (z : Byte) (d : Dir) (a : SlaveAddr) (c v : Byte) :
    reqCommand (packReq z d a c v) = c := by
  apply BitVec.eq_of_getLsbD_eq; intro i hi
  rw [reqCommand, BitVec.getLsbD_extractLsb', getLsbD_packReq]
  split_ifs <;> first | omega | simp [hi]

@[simp] theorem reqData_packReq (z : Byte) (d : Dir) (a : SlaveAddr) (c v : Byte) : reqData (packReq z d a c v) = v := by
  apply BitVec.eq_of_getLsbD_eq; intro i hi
  rw [reqData, BitVec.getLsbD_extractLsb', getLsbD_packReq]
  split_ifs <;> first | omega | simp [hi]

@[simp] theorem primOp_packPrim (op : BitVec 4) (arg : Byte) : primOp (packPrim op arg) = op := by
  apply BitVec.eq_of_getLsbD_eq; intro i hi
  rw [primOp, BitVec.getLsbD_extractLsb', getLsbD_packPrim]
  split_ifs <;> first | omega | simp [hi]

@[simp] theorem primArg_packPrim (op : BitVec 4) (arg : Byte) : primArg (packPrim op arg) = arg := by
  apply BitVec.eq_of_getLsbD_eq; intro i hi
  rw [primArg, BitVec.getLsbD_extractLsb', getLsbD_packPrim]
  split_ifs <;> first | omega | simp [hi]

theorem Dir.ofBit_eq_read (b : BitVec 1) : decide (Dir.ofBit b = .read) = b.getLsbD 0 := by revert b; decide

/-- A request word is its fields packed. R42. -/
theorem packReq_fields (w : Word) : packReq (reqSize w) (reqDir w) (reqAddr w) (reqCommand w) (reqData w) = w := by
  apply BitVec.eq_of_getLsbD_eq; intro i hi
  rw [getLsbD_packReq, reqDir, Dir.ofBit_eq_read, reqSize, reqAddr, reqCommand, reqData]
  simp only [BitVec.getLsbD_extractLsb']
  split_ifs with h1 h2 h3 h4
  · simp [h1]
  · rw [show 8 + (i - 8) = i by omega]; simp; omega
  · rw [show 16 + (i - 16) = i by omega]; simp; omega
  · simp [h4]
  · rw [show 24 + (i - 24) = i by omega]; simp; omega

/-- Each bit of a response word. R47. -/
theorem Machine.getLsbD_rsp (r : Machine.Result) (i : Nat) :
    r.rsp.getLsbD i = if i < 8 then r.dataField.getLsbD i else if i < 12 then r.code.getLsbD (i - 8) else false := by
  show ((0 : BitVec 20) ++ r.code ++ r.dataField : BitVec (20 + 4 + 8)).getLsbD i = _
  rw [BitVec.getLsbD_append, BitVec.getLsbD_append]
  split_ifs <;> first | rfl | omega | simp

end Sys2Proof
end

