-- ==== Sys2Proof/Laws/PerInstr.lean ====
section
/-! SUPPORT. One lemma per operation: its words are the words of its own row of the opcode table
(spec/30_encoding.md R45, R52). -/

namespace Sys2Proof.Laws.Row

/-- The micro-operation numbers, in order. R52. -/
def primNames : List String :=
  ["SETDATA", "CLOCKON", "CLOCKOFF", "COMMIT", "READDATALINE", "START"] ++
  ["STOP", "READBIT", "ACKCHECK", "SENDBYTE", "READBYTE", "BUSBUSY"]

/-- The word of a well-formed operation is a word of the operation's row: for a request its size and direction select
the mnemonic, and only then is the word a request word; for an inner operation its number does. -/
def Statement (i : Instr) : Prop :=
  i.wf = true →
    match encode i with
    | .req w => i.isRequest = true ∧ (decodeReq w).mnemonic = i.mnemonic
    | .prim w => i.isRequest = false ∧ primNames[(primOp w).toNat]? = some i.mnemonic

theorem wrb (addr : SlaveAddr) (cmd data : Byte) : Statement (.wrb addr cmd data) := by
  simp [Statement, encode, decodeReq, Instr.mnemonic, Instr.isRequest]

theorem rdb (addr : SlaveAddr) (cmd data : Byte) : Statement (.rdb addr cmd data) := by
  simp [Statement, encode, decodeReq, Instr.mnemonic, Instr.isRequest]

theorem wrbd (addr : SlaveAddr) (cmd data : Byte) : Statement (.wrbd addr cmd data) := by
  simp [Statement, encode, decodeReq, Instr.mnemonic, Instr.isRequest, sizeByte, sizeByteData]

theorem rdbd (addr : SlaveAddr) (cmd data : Byte) : Statement (.rdbd addr cmd data) := by
  simp [Statement, encode, decodeReq, Instr.mnemonic, Instr.isRequest, sizeByte, sizeByteData]

theorem unsup (size : Byte) (dir : Dir) (addr : SlaveAddr) (cmd data : Byte) :
    Statement (.unsup size dir addr cmd data) := by
  intro h
  simp only [Instr.wf, Bool.and_eq_true, bne_iff_ne] at h
  simp [encode, decodeReq, Instr.mnemonic, Instr.isRequest, h.1, h.2]

theorem setdata (b : Bool) : Statement (.setdata b) := by cases b <;> exact fun _ => ⟨rfl, by decide⟩
theorem clockon : Statement .clockon := fun _ => ⟨rfl, by decide⟩
theorem clockoff : Statement .clockoff := fun _ => ⟨rfl, by decide⟩
theorem commit : Statement .commit := fun _ => ⟨rfl, by decide⟩
theorem readdataline : Statement .readdataline := fun _ => ⟨rfl, by decide⟩
theorem start : Statement .start := fun _ => ⟨rfl, by decide⟩
theorem stop : Statement .stop := fun _ => ⟨rfl, by decide⟩
theorem readbit : Statement .readbit := fun _ => ⟨rfl, by decide⟩
theorem ackcheck : Statement .ackcheck := fun _ => ⟨rfl, by decide⟩
theorem sendbyte (v : Byte) : Statement (.sendbyte v) := by
  intro _
  simp [encode, Instr.mnemonic, Instr.isRequest, primNames]
theorem readbyte : Statement .readbyte := fun _ => ⟨rfl, by decide⟩
theorem busbusy : Statement .busbusy := fun _ => ⟨rfl, by decide⟩

end Sys2Proof.Laws.Row
end

