-- ==== Sys2Proof/Laws/Step.lean ====
section
/-! SUPPORT. What a step can do, said once: the four ways it ends (spec/10_state.md R19, spec/42_smbus_adapter.md R78). -/

namespace Sys2Proof.Machine

/-- Whatever is asked, a step does one of four things: nothing, in `IDLE` with no word waiting; the operation the
oldest waiting word decodes to; the refusal of a word the decoder rejects; one event of the transaction in flight. -/
theorem step_cases (s : State) :
    (s.phase = .idle ∧ s.input = [] ∧ step s = .next s) ∨
    (∃ p rest i, s.phase = .idle ∧ s.input = p :: rest ∧ decode p = .ok i ∧ step s = exec i { s with input := rest }) ∨
    (∃ p rest e, s.phase = .idle ∧ s.input = p :: rest ∧ decode p = .error e ∧ step s = .refused (refusalOf e)) ∨
    (s.phase ≠ .idle ∧ step s = .next (eventStep s)) := by
  by_cases h : s.phase = .idle
  · rcases hi : s.input with _ | ⟨p, rest⟩
    · exact .inl ⟨h, rfl, by simp [step, h, hi]⟩
    · rcases hd : decode p with e | i
      · exact .inr (.inr (.inl ⟨p, rest, e, h, rfl, hd, by simp [step, h, hi, hd]⟩))
      · exact .inr (.inl ⟨p, rest, i, h, rfl, hd, by simp [step, h, hi, hd]⟩)
  · exact .inr (.inr (.inr ⟨h, by simp [step, h]⟩))

/-- An inner operation answers a next state from every state. R32, R64. -/
theorem exec_inner (i : Instr) (s : State) (h : i.isRequest = false) : ∃ t, exec i s = .next t := by
  cases i <;> first | exact ⟨_, rfl⟩ | cases h

/-- A request answers a next state in `IDLE` and a refusal in any other phase. R78. -/
theorem exec_request (i : Instr) (s : State) (h : i.isRequest = true) :
    (s.phase = .idle ∧ ∃ t, exec i s = .next t) ∨ (s.phase ≠ .idle ∧ exec i s = .refused .requestInFlight) := by
  by_cases hp : s.phase = .idle
  · refine .inl ⟨hp, ?_⟩
    cases i <;> first
      | exact ⟨_, if_pos hp⟩
      | cases h
  · refine .inr ⟨hp, ?_⟩
    cases i <;> first
      | exact if_neg hp
      | cases h

end Sys2Proof.Machine
end

