-- ==== Sys2Proof/Laws/Trace.lean ====
section
/-! SUPPORT. Counts and commanded lines of the traces the rules write out (spec/41_protocol_engine.md R76). -/

namespace Sys2Proof.Machine

variable (p : Params) (base : Word)

@[simp] theorem numWrites_nil : numWrites p [] = 0 := rfl
@[simp] theorem numReads_nil : numReads p [] = 0 := rfl

@[simp] theorem numWrites_append (a b : List Event) : numWrites p (a ++ b) = numWrites p a + numWrites p b := by
  simp [numWrites, List.countP_append]

@[simp] theorem numReads_append (a b : List Event) : numReads p (a ++ b) = numReads p a + numReads p b := by
  simp [numReads, List.countP_append]

@[simp] theorem numInitWrites_append (a b : List Event) :
    numInitWrites p (a ++ b) = numInitWrites p a + numInitWrites p b := by simp [numInitWrites, List.countP_append]

@[simp] theorem numWrites_wr (c d : Bool) (tr : List Event) :
    numWrites p (p.wr base c d :: tr) = numWrites p tr + 1 := by simp [numWrites, Params.wr]

@[simp] theorem numWrites_rd (w : Word) (tr : List Event) : numWrites p (p.rd w :: tr) = numWrites p tr := by
  simp [numWrites, Params.rd]

@[simp] theorem numReads_wr (c d : Bool) (tr : List Event) : numReads p (p.wr base c d :: tr) = numReads p tr := by
  simp [numReads, Params.wr]

@[simp] theorem numReads_rd (w : Word) (tr : List Event) : numReads p (p.rd w :: tr) = numReads p tr + 1 := by
  simp [numReads, Params.rd]

@[simp] theorem numWrites_sample (c : Bool) (w : Word) : numWrites p (sampleTrace p base c w) = 1 := by
  simp [sampleTrace]
@[simp] theorem numReads_sample (c : Bool) (w : Word) : numReads p (sampleTrace p base c w) = 1 := by
  simp [sampleTrace]
@[simp] theorem numWrites_start (c d : Bool) : numWrites p (startTrace p base c d) = 4 := by simp [startTrace]
@[simp] theorem numReads_start (c d : Bool) : numReads p (startTrace p base c d) = 0 := by simp [startTrace]
@[simp] theorem numWrites_stop (c : Bool) : numWrites p (stopTrace p base c) = 5 := by simp [stopTrace]
@[simp] theorem numReads_stop (c : Bool) : numReads p (stopTrace p base c) = 0 := by simp [stopTrace]
@[simp] theorem numWrites_ack (w : Word) : numWrites p (ackTrace p base w) = 3 := by simp [ackTrace]
@[simp] theorem numReads_ack (w : Word) : numReads p (ackTrace p base w) = 1 := by simp [ackTrace]
@[simp] theorem numWrites_send (c : Bool) (v : Byte) (w : Word) : numWrites p (sendTrace p base c v w) = 27 := by
  simp [sendTrace, sendBitsTrace, bitTrace]
@[simp] theorem numReads_send (c : Bool) (v : Byte) (w : Word) : numReads p (sendTrace p base c v w) = 1 := by
  simp [sendTrace, sendBitsTrace, bitTrace]
@[simp] theorem numWrites_read (d : Bool) (r : RxDraws) : numWrites p (readTrace p base d r) = 28 := by
  simp [readTrace, rxBitTrace]
@[simp] theorem numReads_read (d : Bool) (r : RxDraws) : numReads p (readTrace p base d r) = 9 := by
  simp [readTrace, rxBitTrace]

/-- The lines an event `Wcd` commands. R24. -/
@[simp] theorem linesOf_wr (c d : Bool) : linesOf p (p.wr base c d) = some (c, d) := by simp [linesOf, Params.wr]

/-- A read commands nothing. R24. -/
@[simp] theorem linesOf_rd (w : Word) : linesOf p (p.rd w) = none := rfl

/-- The lines of one bit of SENDBYTE. R71. -/
def bitLines (c b : Bool) : List Lines := [(c, b), (true, b), (false, b)]

/-- The lines of SENDBYTE. R71. -/
def sendLines (c : Bool) (v : Byte) : List Lines :=
  bitLines c (v.getLsbD 7) ++ bitLines false (v.getLsbD 6) ++ bitLines false (v.getLsbD 5) ++
  bitLines false (v.getLsbD 4) ++ bitLines false (v.getLsbD 3) ++ bitLines false (v.getLsbD 2) ++
  bitLines false (v.getLsbD 1) ++ bitLines false (v.getLsbD 0) ++ [(true, true), (true, true), (false, true)]

/-- The lines of READBYTE entered with the data high. R73. -/
def readLines : List Lines :=
  (false, true) :: (List.replicate 8 [(false, true), (true, true), (true, true)]).flatten ++
    [(true, true), (true, true), (false, true)]

theorem lines_send (c : Bool) (v : Byte) (w : Word) :
    (sendTrace p base c v w).filterMap (linesOf p) = sendLines c v := by
  simp [sendTrace, sendBitsTrace, bitTrace, ackTrace, sendLines, bitLines, List.filterMap_cons]

theorem lines_read (r : RxDraws) : (readTrace p base true r).filterMap (linesOf p) = readLines := by
  simp [readTrace, rxBitTrace, ackTrace, readLines, List.replicate, List.filterMap_cons]

theorem lines_sample (c : Bool) (w : Word) : (sampleTrace p base c w).filterMap (linesOf p) = [(c, true)] := by
  simp [sampleTrace, List.filterMap_cons]

theorem lines_start (c d : Bool) : (startTrace p base c d).filterMap (linesOf p) =
    [(c, d), (c, false), (false, false), (true, false)] := by simp [startTrace]

theorem lines_stop (c : Bool) : (stopTrace p base c).filterMap (linesOf p) =
    [(c, false), (true, false), (true, true), (false, true), (true, true)] := by simp [stopTrace]

end Sys2Proof.Machine
end

