-- ==== Sys2Proof/Tests/Slice0.lean ====
section
/-! SUPPORT. The model's own tests: one step each, on small states, the expected results written out from
spec/30_encoding.md and from the vectors of spec/95_test_vectors.md (V, L, E, A, P, X there). -/

namespace Sys2Proof.Tests

open Sys2Proof.Machine

/-! ### The spec's illustration parameters -/

/-- Parameter set A of spec/95_test_vectors.md. -/
def rawA : RawParams where
  clockBit := 0
  dataBit := 1
  dataInBit := 2
  ctrlOffset := 0x10
  initOffset := 0x14
  initValue := 1
  shadowInit := 3

/-- Parameter set B, with enable flags. -/
def rawB : RawParams where
  clockBit := 12
  dataBit := 13
  dataInBit := 20
  ctrlOffset := 0x10
  initOffset := 0x14
  initValue := 1
  shadowInit := 0x80003041

/-- Set A with the other acknowledge sense (vectors E9, A16, A17). -/
def rawN : RawParams := { rawA with ackSample := false }

/-- The block after reset with parameters `r`, the shadow at `sh`, and the answers `ws` to come. -/
def blk (r : RawParams) (sh : Word) (ws : List Word) : State :=
  { State.resetWith r.fit with shadow := sh, env := ws }

/-- Answers with set A's data-in bit 1 and 0; all other bits of the second are 1. -/
def hi : Word := 0x00000004
def lo : Word := 0xFFFFFFFB

/-- The event `Wcd` under set A, and the two reads: whole words from the table of spec/95_test_vectors.md section 1. -/
def w11 : Event := .write 0x10 3
def w10 : Event := .write 0x10 1
def w00 : Event := .write 0x10 0
def w01 : Event := .write 0x10 2
def r1 : Event := .read 0x10 hi
def r0 : Event := .read 0x10 lo

/-- The next state, if there is one. -/
def nextOf : Host.Outcome State Fault Refusal → Option State
  | .next t => some t
  | .fault _ => none
  | .refused _ => none

/-- One step on a word at the port, as the host makes it. -/
def run (s : State) (nbits w : Nat) : Option State := nextOf (step (s.withFetchWord nbits w))

/-- The events a step adds to the reset trace. -/
def events (s : State) (nbits w : Nat) : Option (List Event) := (run s nbits w).map (·.trace.drop 1)

/-- The result a step delivers, and its response word. -/
def result (s : State) (nbits w : Nat) : Option (Option Result) := (run s nbits w).map (·.status)

/-- What an inner operation returned, and the shadow it left. -/
def returned (s : State) (nbits w : Nat) : Option (OpReturn × Word) := (run s nbits w).map fun t => (t.ret, t.shadow)

/-! ### Well-formedness: the one check refuses an ill-formed term -/

theorem test_wf_refuses_unsup_of_size_byte : (Instr.unsup 1 .write 0x50 0 0).wf = false := by decide
theorem test_wf_refuses_unsup_of_size_byte_data : (Instr.unsup 2 .read 0x50 0 0).wf = false := by decide
theorem test_wf_admits_neighbouring_sizes :
    (Instr.unsup 0 .write 0 0 0).wf = true ∧ (Instr.unsup 3 .read 0x7F 0xFF 0xFF).wf = true := by decide

/-! ### Decoding: a written-out word for each constructor (R45, R52, V1 to V10) -/

-- SIZE = 00000001, DIR = 0, ADDR = 0101101, COMMAND = 00010010, DATA = 00000000
theorem test_decode_wrb :
    decodeTableWord 32 0b00000001_0_0101101_00010010_00000000 = some (.wrb 0x2D 0x12 0) := by decide
theorem test_decode_rdb :
    decodeTableWord 32 0b00000001_1_0101101_00000000_00000000 = some (.rdb 0x2D 0 0) := by decide
theorem test_decode_wrbd :
    decodeTableWord 32 0b00000010_0_1010000_00010000_10101011 = some (.wrbd 0x50 0x10 0xAB) := by decide
theorem test_decode_rdbd :
    decodeTableWord 32 0b00000010_1_1010000_11111111_11101110 = some (.rdbd 0x50 0xFF 0xEE) := by decide
theorem test_decode_unsup :
    decodeTableWord 32 0b00000011_0_1010000_00000000_00000000 = some (.unsup 3 .write 0x50 0 0) := by decide
theorem test_decode_unsup_zero : decodeTableWord 32 0 = some (.unsup 0 .write 0 0 0) := by decide
theorem test_decode_setdata : decodeTableWord 16 0b0000_1111_1110 = some (.setdata false) := by decide
theorem test_decode_setdata_one : decodeTableWord 16 0x001 = some (.setdata true) := by decide
theorem test_decode_clockon : decodeTableWord 16 0x100 = some .clockon := by decide
theorem test_decode_clockoff : decodeTableWord 16 0x200 = some .clockoff := by decide
theorem test_decode_commit : decodeTableWord 16 0x300 = some .commit := by decide
theorem test_decode_readdataline : decodeTableWord 16 0x400 = some .readdataline := by decide
theorem test_decode_start : decodeTableWord 16 0x500 = some .start := by decide
theorem test_decode_stop : decodeTableWord 16 0x600 = some .stop := by decide
theorem test_decode_readbit : decodeTableWord 16 0x700 = some .readbit := by decide
theorem test_decode_ackcheck : decodeTableWord 16 0x800 = some .ackcheck := by decide
theorem test_decode_sendbyte : decodeTableWord 16 0b1001_10100000 = some (.sendbyte 0xA0) := by decide
theorem test_decode_readbyte : decodeTableWord 16 0xA00 = some .readbyte := by decide
theorem test_decode_busbusy : decodeTableWord 16 0xB00 = some .busbusy := by decide
/-- OP 12 and 15 name nothing, and bits that are no port word give nothing. -/
theorem test_decode_rejects :
    decodeTableWord 16 0xC00 = none ∧ decodeTableWord 16 0xFFF = none ∧ decodeTableWord 16 0x1001 = none ∧
      decodeTableWord 24 0x001 = none := by decide

/-! ### Line State Controller (vectors L1 to L11, set B) -/

theorem test_setdata_L1 : returned (blk rawB 0x80003041 []) 16 0x000 = some (.none, 0x80001041) := by decide
theorem test_setdata_L3 : returned (blk rawB 0x80000041 []) 16 0x001 = some (.none, 0x80002041) := by decide
theorem test_clockoff_L2 : returned (blk rawB 0x80001041 []) 16 0x200 = some (.none, 0x80000041) := by decide
theorem test_clockon_L4 : returned (blk rawB 0x80002041 []) 16 0x100 = some (.none, 0x80003041) := by decide
theorem test_commit_L7 : events (blk rawB 0x80001041 []) 16 0x300 = some [.write 0x10 0x80001041] := by decide
theorem test_readdataline_L10 :
    returned (blk rawB 0x80003041 [0xFFEFFFFF]) 16 0x400 = some (.bit false, 0x80003041) := by decide
theorem test_readdataline_L9 :
    returned (blk rawB 0x80001041 [0x00100000]) 16 0x400 = some (.bit true, 0x80003041) ∧
    events (blk rawB 0x80001041 [0x00100000]) 16 0x400 =
      some [.write 0x10 0x80003041, .read 0x10 0x00100000] := by decide

/-! ### Protocol Engine (vectors E1 to E17, set A) -/

theorem test_start_E1 : events (blk rawA 3 []) 16 0x500 = some [w11, w10, w00, w10] := by decide
theorem test_start_E2 : events (blk rawA 2 []) 16 0x500 = some [w01, w00, w00, w10] := by decide
theorem test_stop_E3 : events (blk rawA 2 []) 16 0x600 = some [w00, w10, w11, w01, w11] := by decide
theorem test_stop_E4_second : events (blk rawA 3 []) 16 0x600 = some [w10, w10, w11, w01, w11] := by decide
theorem test_readbit_E6 :
    events (blk rawA 1 [lo]) 16 0x700 = some [w11, r0] ∧
    returned (blk rawA 1 [lo]) 16 0x700 = some (.bit false, 3) := by decide
theorem test_ackcheck_E7 :
    events (blk rawA 0 [hi]) 16 0x800 = some [w11, w11, r1, w01] ∧
    returned (blk rawA 0 [hi]) 16 0x800 = some (.bit true, 2) := by decide
theorem test_ackcheck_E9 : returned (blk rawN 2 [lo]) 16 0x800 = some (.bit true, 2) := by decide
theorem test_sendbyte_E11 :
    events (blk rawA 1 [hi]) 16 0x9A0 =
      some ([w11, w11, w01, w00, w10, w00, w01, w11, w01, w00, w10, w00, w00, w10, w00] ++
        [w00, w10, w00, w00, w10, w00, w00, w10, w00, w11, w11, r1, w01]) := by decide
theorem test_sendbyte_E12 : returned (blk rawA 2 [lo]) 16 0x900 = some (.bit false, 2) := by decide
theorem test_readbyte_E14 :
    events (blk rawA 2 [hi, lo, hi, lo, lo, hi, lo, hi, hi]) 16 0xA00 =
      some ([w01, w01, w11, r1, w11, w01, w11, r0, w11, w01, w11, r1, w11, w01, w11, r0, w11] ++
        [w01, w11, r0, w11, w01, w11, r1, w11, w01, w11, r0, w11, w01, w11, r1, w11, w11, w11, r1, w01]) := by
  decide
theorem test_readbyte_E15 :
    returned (blk rawA 2 [hi, hi, hi, hi, lo, lo, lo, lo, lo]) 16 0xA00 = some (.byte true 0xF0, 2) := by
  decide
theorem test_busbusy_E16 : returned (blk rawA 3 [hi]) 16 0xB00 = some (.bit false, 3) := by decide
theorem test_busbusy_E17 : returned (blk rawN 3 [lo]) 16 0xB00 = some (.bit true, 3) := by decide

/-! ### `access` (vectors A1 to A17) -/

theorem test_wrb_A7_trace :
    events (blk rawA 3 [hi, lo]) 32 0x012D1200 =
      some ([w11, r1, w11, w10, w00, w10, w10, w10, w00, w01, w11, w01, w00, w10, w00, w01, w11, w01] ++
        [w01, w11, w01, w00, w10, w00, w01, w11, w01, w00, w10, w00, w11, w11, r0, w01, w00, w10, w11, w01, w11]) := by
  decide
theorem test_wrb_results_A1_A7_A16 :
    result (blk rawA 3 [hi, hi, hi]) 32 0x012D1200 = some (some .okWrite) ∧
    result (blk rawA 3 [hi, lo]) 32 0x012D1200 = some (some (.fail .noAckAddress)) ∧
    result (blk rawN 3 [hi, lo, lo]) 32 0x012D1200 = some (some .okWrite) ∧
    result (blk rawA 3 [hi, hi, lo]) 32 0x012D1200 = some (some (.fail .noAckData)) := by decide
theorem test_rdb_results_A2_A10_A11 :
    result (blk rawA 3 [hi, hi, hi, lo, hi, lo, hi, lo, hi, hi, hi]) 32 0x01AD0000 = some (some (.okRead 0xAB)) ∧
    result (blk rawA 3 [hi, hi, lo, lo, lo, lo, lo, lo, lo, lo, lo]) 32 0x01AD0000 =
      some (some (.fail .noAckRead)) ∧
    result (blk rawA 3 [hi, hi, lo, lo, lo, lo, lo, lo, lo, lo, hi]) 32 0x01AD0000 = some (some (.okRead 0)) := by
  decide
theorem test_wrbd_A3_trace :
    events (blk rawA 3 [hi, hi, hi, hi]) 32 0x025010AB =
      some ([w11, r1, w11, w10, w00, w10] ++
        [w11, w11, w01, w00, w10, w00, w01, w11, w01, w00, w10, w00, w00, w10, w00, w00, w10, w00, w00, w10, w00] ++
        [w00, w10, w00, w11, w11, r1, w01] ++
        [w00, w10, w00, w00, w10, w00, w00, w10, w00, w01, w11, w01, w00, w10, w00, w00, w10, w00, w00, w10, w00] ++
        [w00, w10, w00, w11, w11, r1, w01] ++
        [w01, w11, w01, w00, w10, w00, w01, w11, w01, w00, w10, w00, w01, w11, w01, w00, w10, w00, w01, w11, w01] ++
        [w01, w11, w01, w11, w11, r1, w01] ++ [w00, w10, w11, w01, w11]) := by decide +kernel
theorem test_wrbd_results_A5_A8_A9 :
    result (blk rawA 3 [lo]) 32 0x025010AB = some (some (.fail .busBusy)) ∧
    result (blk rawA 3 [hi, hi, lo]) 32 0x022D1234 = some (some (.fail .noAckData)) ∧
    result (blk rawA 3 [hi, hi, hi, lo]) 32 0x022D1234 = some (some (.fail .noAckData)) ∧
    (events (blk rawA 3 [hi, hi, lo]) 32 0x022D1234).map List.length = some (64 + 3) ∧
    (events (blk rawA 3 [hi, hi, hi, lo]) 32 0x022D1234).map List.length = some (91 + 4) := by decide +kernel
theorem test_rdbd_A4b :
    result (blk rawA 3 (List.replicate 11 hi)) 32 0x02D0FFEE = some (some (.okRead 0xFF)) ∧
    (events (blk rawA 3 (List.replicate 11 hi)) 32 0x02D0FFEE).map List.length = some (65 + 11) := by decide
theorem test_unsup_A6_A6b :
    result (blk rawA 3 [hi]) 32 0x03500000 = some (some (.fail .unsupported)) ∧
    events (blk rawA 3 [hi]) 32 0x03500000 = some [w11, r1] ∧
    result (blk rawA 3 [lo]) 32 0x03500000 = some (some (.fail .busBusy)) := by decide
/-- The enable flags survive, and the first write is of `SHADOW_INIT` (P3 step 1, set B; R116). -/
theorem test_wrb_P3_first_words :
    (events (blk rawB 0x80003041 [0x00100000, 0]) 32 0x01100000).map (·.take 6) =
      some [.write 0x10 0x80003041, .read 0x10 0x00100000, .write 0x10 0x80003041, .write 0x10 0x80001041,
        .write 0x10 0x80000041, .write 0x10 0x80001041] := by decide

/-! ### The sequencer, reset, and the stops -/

/-- Reset writes the initialisation register and nothing else (P1). -/
theorem test_reset_trace : (State.resetWith rawB.fit).trace = [.write 0x14 1] := by decide
/-- A word placed at the port of the block as reset leaves it is what the next step runs, whatever the parameters. -/
theorem test_fetched_word_runs_after_reset :
    (∃ t, step (State.reset.withFetchWord 32 0x012D1200) = .next t) ∧
    (∃ t, step (State.reset.withFetchWord 16 0x9A0) = .next t) := ⟨⟨_, rfl⟩, _, rfl⟩
/-- One event at a time, as many as the `access` has, ends where the whole `access` ends (A8, A10; R19). -/
theorem test_events_agree_with_wrbd :
    nextOf (Host.Core.run core (64 + 3) (accept 2 .write 0x2D 0x12 0x34 (blk rawA 3 [hi, hi, lo]))) =
      nextOf (exec (.wrbd 0x2D 0x12 0x34) (blk rawA 3 [hi, hi, lo])) := by decide +kernel
theorem test_events_agree_with_rdb :
    nextOf (Host.Core.run core (65 + 11)
        (accept 1 .read 0x2D 0 0 (blk rawA 3 [hi, hi, lo, lo, lo, lo, lo, lo, lo, lo, hi]))) =
      nextOf (exec (.rdb 0x2D 0 0) (blk rawA 3 [hi, hi, lo, lo, lo, lo, lo, lo, lo, lo, hi])) := by decide +kernel
/-- The two words that stop: a request while one is in flight (R78), an unassigned number (R53). -/
theorem test_request_in_flight :
    exec (.wrb 0x2D 0x12 0) { blk rawA 3 [] with phase := .buschk } = .refused .requestInFlight := rfl
theorem test_unassigned_op :
    step { blk rawA 3 [] with input := [.prim 0xC00] } = .refused (.unassignedOp 12) := rfl

/-! ### Witnesses: for every statement with hypotheses, a state and operands that meet them all -/

/-- The idle block, set A: after reset, the answers `ws` to come. -/
abbrev idleA (ws : List Word) : State := blk rawA 3 ws

/-- A transaction in flight: between the two commits of an acknowledge slot. -/
def inFlight : State :=
  { idleA [lo] with
    phase := .tx .cmd .ack, evt := 2, tSize := 2, tAddr := 0x50, tCmd := 0x10, tData := 0xAB, aByte := 0xA0, ackF := true }

theorem idleA_idle (ws : List Word) : Idle (idleA ws) :=
  ⟨rfl, show rawA.fit.clk 3 = true by decide, show rawA.fit.sdo 3 = true by decide +kernel⟩

theorem idleA_enable_bits (ws : List Word) (inp : List PortWord) : EnableBitsKept { idleA ws with input := inp } := by
  refine ⟨show (3 : Word) &&& rawA.fit.otherMask = rawA.fit.shadowInit &&& rawA.fit.otherMask by decide,
    fun v h => ?_⟩
  injection List.mem_singleton.mp h with h1
  exact absurd (show rawA.fit.ctrlOffset = rawA.fit.initOffset from h1) (by decide)

theorem witness_DecodeOfEncodeGivesBack :
    (Instr.unsup 0 .write 0 0 0).wf = true ∧ (Instr.unsup 3 .read 0x7F 0xFF 0xFF).wf = true ∧
      (Instr.sendbyte 0xFF).wf = true := by decide

theorem witness_OpcodeMapSelectsBySizeAndDirection :
    (0x017FFFFF : Word) &&& 0xFF800000 = 0x01000000 ∧ (0x01800000 : Word) &&& 0xFF800000 = 0x01800000 ∧
      (0x027FFFFF : Word) &&& 0xFF800000 = 0x02000000 ∧ (0x02FFFFFF : Word) &&& 0xFF800000 = 0x02800000 := by decide

theorem witness_UnassignedMicroOperationIsRefused :
    12 ≤ (12 : BitVec 4).toNat ∧ 12 ≤ (15 : BitVec 4).toNat ∧ (idleA []).phase = .idle ∧
      ({ idleA [] with input := [.prim (packPrim 15 0xFF)] } : State).input = .prim (packPrim 15 0xFF) :: [] := by decide

theorem witness_StepRunsTheDecodedOperation :
    let s : State := { idleA [] with input := [.prim 0x500, .req 0] }
    s.phase = .idle ∧ s.input = .prim 0x500 :: [.req 0] ∧ decode (.prim 0x500) = .ok .start := ⟨rfl, rfl, rfl⟩

theorem witness_FetchedWordRunsNext :
    PortWord.ofBits 16 0xBFF = some (.prim 0xBFF) ∧ decode (.prim 0xBFF) = .ok .busbusy ∧
      PortWord.ofBits 32 0xFFFFFFFF = some (.req 0xFFFFFFFF) := ⟨rfl, rfl, rfl⟩

theorem witness_IdleDoesNothingWithoutARequest : (idleA []).phase = .idle ∧ (idleA []).input = [] := ⟨rfl, rfl⟩

/-- Both alternatives occur: the event here is a read, the one before it a write. -/
theorem witness_InFlightStepIsOneEvent :
    inFlight.phase ≠ .idle ∧ (nextOf (step inFlight)).map (·.trace.drop 1) = some [r0] ∧
      (nextOf (step { inFlight with evt := 1 })).map (·.trace.drop 1) = some [w11] := by decide

theorem witness_RequestInFlightIsRefused :
    (Instr.unsup 3 .write 0x50 0 0).isRequest = true ∧ inFlight.phase ≠ .idle := by decide

theorem witness_AcceptanceLatchesTheRequestWord : (idleA [hi, lo]).phase = .idle := rfl

theorem witness_SetdataChangesOnlyTheDataBit :
    (0xFE : Byte).getLsbD 0 = false ∧ (0xFF : Byte).getLsbD 0 = true ∧ (31 : Nat) < 32 := by decide

theorem witness_EngineOperationsCountAndExit :
    ∀ x ∈ [(Instr.start, 4, 0, true, false), (.stop, 5, 0, true, true), (.readbit, 1, 1, (idleA []).clk, true),
        (.ackcheck, 3, 1, false, true), (.readbyte, 28, 9, false, true), (.busbusy, 1, 1, (idleA []).clk, true)],
      (nextOf (exec x.1 (idleA (List.replicate 9 hi)))).map
          (fun t => (numWrites rawA.fit t.trace, numReads rawA.fit t.trace, t.clk, t.sdo)) = some x.2 := by
  decide

theorem witness_EngineOperationsCountAndExit_sendbyte :
    (∃ v, Instr.sendbyte 0xFF = .sendbyte v ∧ 27 = 27 ∧ 1 = 1 ∧ false = false ∧ true = true) := ⟨0xFF, rfl, rfl, rfl, rfl, rfl⟩

/-- Idle; every branch of the rule is taken on some answers: `test_wrb_results_A1_A7_A16`, and the busy one here. -/
theorem witness_WriteByteFollowsItsRule :
    (idleA [lo]).phase = .idle ∧ result (idleA [lo]) 32 0x012D1200 = some (some (.fail .busBusy)) := by decide

/-- Every branch: `test_wrbd_results_A5_A8_A9`, `test_wrbd_A3_trace`, and the refused address here. -/
theorem witness_WriteByteDataFollowsItsRule :
    (idleA [hi, lo]).phase = .idle ∧
      result (idleA [hi, lo]) 32 0x025010AB = some (some (.fail .noAckAddress)) := by decide

/-- Every branch: `test_rdb_results_A2_A10_A11`, and the busy and the refused address here, for both sizes. -/
theorem witness_ReadByteFollowsItsRule :
    (idleA [lo]).phase = .idle ∧
      (Instr.rdbd 0x50 0 0 = .rdb 0x50 0 0 ∧ sizeByteData = sizeByte ∨
        Instr.rdbd 0x50 0 0 = .rdbd 0x50 0 0 ∧ sizeByteData = sizeByteData) ∧
      result (idleA [lo]) 32 0x01AD0000 = some (some (.fail .busBusy)) ∧
      result (idleA [hi, lo]) 32 0x02D00000 = some (some (.fail .noAckAddress)) := by decide

theorem witness_UnsupportedFollowsItsRule :
    (idleA [hi]).phase = .idle ∧ (0 : Byte) ≠ sizeByte ∧ (0 : Byte) ≠ sizeByteData ∧ (3 : Byte) ≠ sizeByte ∧
      (3 : Byte) ≠ sizeByteData := by decide

/-- Both clauses: a sample of 0 ends the request, a sample of 1 does not end it so. -/
theorem witness_BusyBusEndsEveryRequestAtOnce :
    (Instr.wrb 0x2D 0x12 0).isRequest = true ∧ (Instr.wrb 0x2D 0x12 0).wf = true ∧ (idleA [lo]).phase = .idle ∧
      rawA.fit.sdi lo = false ∧ rawA.fit.sdi hi = true ∧ (idleA [lo]).clk = true := by decide

theorem witness_ResultsStayInTheirTable :
    (Instr.rdb 0x2D 0 0).isRequest = true ∧ (Instr.rdb 0x2D 0 0).wf = true ∧ (idleA [hi]).phase = .idle := by decide

/-- Every "yes" of the table of R103. -/
theorem witness_EveryResultOfTheTableOccurs :
    (idleA []).phase = .idle ∧
      (∀ r ∈ [Result.okWrite, .fail .busBusy, .fail .noAckAddress, .fail .noAckData],
        mayEndIn (.wrb 0 0 0) r = true ∧ mayEndIn (.wrbd 0 0 0) r = true) ∧
      (∀ r ∈ [Result.okRead 0, .okRead 0xFF, .fail .busBusy, .fail .noAckAddress, .fail .noAckRead],
        mayEndIn (.rdb 0 0 0) r = true ∧ mayEndIn (.rdbd 0 0 0) r = true) ∧
      (∀ r ∈ [Result.fail .busBusy, .fail .unsupported], mayEndIn (.unsup 0 .read 0 0 0) r = true) ∧
      mayEndIn (.wrb 0 0 0) (.okRead 0) = false ∧ mayEndIn (.rdb 0 0 0) .okWrite = false ∧
      mayEndIn (.unsup 0 .read 0 0 0) .okWrite = false ∧ (Instr.unsup 0 .read 0 0 0).wf = true := by decide

/-- Two blocks with different parameters and shadows, and the same samples. -/
theorem witness_ResultDependsOnSamplesOnly :
    let s := blk rawA 3 (List.replicate 11 hi)
    let s' := blk rawB 0x80003041 (List.replicate 11 0x00100000)
    s.phase = .idle ∧ s'.phase = .idle ∧ 11 ≤ s.env.length ∧ s'.env.length = s.env.length ∧
      s.cfg.ackSample = s'.cfg.ackSample ∧ s.env.map s.cfg.sdi = s'.env.map s'.cfg.sdi := by decide

theorem witness_IgnoredFieldsChangeNothing :
    (idleA [hi, hi]).phase = .idle ∧ (0 : Byte) ≠ sizeByte ∧ (0 : Byte) ≠ sizeByteData ∧ (0xFF : Byte) ≠ sizeByte ∧
      (0xFF : Byte) ≠ sizeByteData := by decide

theorem witness_ReadShapesBehaveAlike : (idleA [hi, hi]).phase = .idle := rfl

theorem witness_EveryAccessEndsIdle :
    (Instr.wrbd 0x50 0x10 0xAB).isRequest = true ∧ (Instr.wrbd 0x50 0x10 0xAB).wf = true ∧ Idle (idleA [hi, lo]) ∧
      EnableBitsKept (idleA [hi, lo]) := ⟨rfl, rfl, idleA_idle _, idleA_enable_bits _ []⟩

theorem witness_AccessCountsByOutcome :
    (Instr.wrbd 0x50 0x10 0xAB).isRequest = true ∧ (Instr.wrbd 0x50 0x10 0xAB).wf = true ∧
      (idleA [hi, hi, lo]).phase = .idle := ⟨rfl, rfl, rfl⟩

/-- The last address without a second STOP shape and the first with one (A1, A7b at the boundary of R120 item 3). -/
theorem witness_DataMovesOnlyAsTheSequencesAllow :
    Idle (idleA [hi, lo]) ∧ (Instr.wrb 0x3F 0x12 0).isRequest = true ∧ (Instr.wrb 0x40 0x12 0).wf = true ∧
      (nextOf (exec (.wrb 0x3F 0x12 0) (idleA [hi, lo]))).map
        (fun t => (countShape startShaped (wireTrace rawA.fit t.trace), countShape stopShaped (wireTrace rawA.fit t.trace)))
        = some (1, 1) ∧
      (nextOf (exec (.wrb 0x40 0x12 0) (idleA [hi, lo]))).map
        (fun t => (countShape startShaped (wireTrace rawA.fit t.trace), countShape stopShaped (wireTrace rawA.fit t.trace)))
        = some (1, 2) :=
  ⟨idleA_idle _, rfl, rfl, by decide, by decide +kernel⟩

theorem witness_WorkedExampleSucceeds :
    let s : State := { idleA [hi, hi, hi, hi] with input := [.req 0x025010AB] }
    Idle s ∧ s.cfg.ackSample = true ∧ s.input = .req 0x025010AB :: [] ∧ s.env = [hi, hi, hi, hi] ∧ s.cfg.sdi hi = true :=
  ⟨idleA_idle [hi, hi, hi, hi], rfl, rfl, rfl, by decide⟩

/-- X2 and P2: the target at 0x2D, command 0x07, byte 0xA5. -/
theorem witness_WrittenByteReadsBack :
    let bitWord : Bool → Word := fun b => if b then hi else lo
    let s : State :=
      { idleA ([hi, hi, hi, hi] ++ [hi, hi] ++
          ([7, 6, 5, 4, 3, 2, 1, 0].map fun k => bitWord ((0xA5 : Byte).getLsbD k)) ++ [hi]) with
        input := [.req (assemble (.wrbd 0x2D 0x07 0xA5)), .req (assemble (.rdb 0x2D))] }
    s.phase = .idle ∧ s.cfg.sdi hi = true ∧ s.cfg.sdi hi = s.cfg.ackSample ∧ (∀ b, s.cfg.sdi (bitWord b) = b) ∧
      assemble (.wrbd 0x2D 0x07 0xA5) = 0x022D07A5 ∧ assemble (.rdb 0x2D) = 0x01AD0000 := by decide

theorem witness_FirstRequestCommitsShadowInit :
    (Instr.unsup 0 .write 0 0 0).isRequest = true ∧ (Instr.unsup 0 .write 0 0 0).wf = true := ⟨rfl, rfl⟩

/-- A request waiting, and a transaction in flight. -/
theorem witness_EveryStepKeepsTheEnableBits :
    (EnableBitsKept { idleA [hi] with input := [.req 0x03500000] } ∧
      ∃ t, step { idleA [hi] with input := [.req 0x03500000] } = .next t) ∧
    (EnableBitsKept inFlight ∧ ∃ t, step inFlight = .next t) := by
  refine ⟨⟨idleA_enable_bits _ _, _, rfl⟩, ⟨by decide, fun v h => ?_⟩, _, rfl⟩
  injection List.mem_singleton.mp h with h1
  exact absurd (show rawA.fit.ctrlOffset = rawA.fit.initOffset from h1) (by decide)

theorem witness_EveryStepLeavesTheInitRegister :
    InitWrittenOnce { idleA [hi] with input := [.req 0x03500000] } ∧
      ∃ t, step { idleA [hi] with input := [.req 0x03500000] } = .next t :=
  ⟨⟨by decide, by decide +kernel, rfl⟩, _, rfl⟩

/-- The premise is not met emptily: a word was written and the register holds it. -/
theorem witness_EveryStepKeepsTheLastWrite :
    let s : State := { idleA [hi] with ctrlReg := 3, trace := [.write 0x14 1, .write 0x10 3], input := [.prim 0x300] }
    lastCtrlWrite s.cfg s.trace = some 3 ∧ CtrlHoldsLastWrite s ∧ ∃ t, step s = .next t := by
  refine ⟨by decide, fun v h => ?_, _, rfl⟩
  have h3 : some (3 : Word) = some v := h
  injection h3

theorem witness_EveryStepStaysInOrder :
    InOrder { idleA [hi] with input := [.req 0x03500000] } ∧ InOrder inFlight := by
  refine ⟨⟨fun p hp => ⟨_, List.mem_singleton.mp hp⟩, by decide, rfl, rfl⟩, ⟨?_, by decide, rfl, rfl⟩⟩
  intro p hp
  cases hp

theorem witness_EveryRunOfRequestsIsSafe :
    InOrder { idleA [hi] with input := [.req 0x03500000] } ∧
      EnableBitsKept { idleA [hi] with input := [.req 0x03500000] } :=
  ⟨witness_EveryStepStaysInOrder.1, idleA_enable_bits _ _⟩

theorem witness_ParametersStayAndTheTraceGrows : ∃ t, step inFlight = .next t := ⟨_, rfl⟩

theorem witness_EventStepsAgreeWithTheWholeAccess : (idleA [hi, hi, lo]).phase = .idle := rfl

theorem witness_EveryTransactionEnds : inFlight.phase ≠ .idle ∧ (accept 2 .write 0x50 0x10 0xAB (idleA [])).phase ≠ .idle := by
  decide

end Sys2Proof.Tests
end

/-! SUPPORT. What any step can do to the parameters, the shadow, the register window and the trace: a chain of
four primitive moves (spec/40_line_state_controller.md R57, spec/20_memory.md R26 to R30). Every invariant that speaks of
these fields only is then four small cases. -/

namespace Sys2Proof.Machine

/-- `t` agrees with `s` on the parameters, the shadow, the two registers of the window and the trace. -/
structure SameWindow (s t : State) : Prop where
  cfg : t.cfg = s.cfg
  shadow : t.shadow = s.shadow
  ctrlReg : t.ctrlReg = s.ctrlReg
  initReg : t.initReg = s.initReg
  trace : t.trace = s.trace

/-- `s` comes to `t` by setting line bits of the shadow, by COMMITs, by reads at the control offset, and by changes of
fields outside the window. -/
inductive Moves (s : State) : State → Prop where
  | refl : Moves s s
  | lines {t : State} (c d : Bool) (h : Moves s t) : Moves s { t with shadow := t.cfg.withLines t.shadow c d }
  | commit {t : State} (h : Moves s t) : Moves s (commit t)
  | read {t : State} (h : Moves s t) : Moves s (memRead .ctrl t).2
  | other {t u : State} (h : Moves s t) (hw : SameWindow t u) : Moves s u

namespace Moves

variable {s t : State}

/-! ### The shared operations and the Line State Controller -/

theorem returnWith (r : OpReturn) (h : Moves s t) : Moves s (returnWith r t) := h.other ⟨rfl, rfl, rfl, rfl, rfl⟩

theorem accept (z : Byte) (d : Dir) (a : SlaveAddr) (c v : Byte) (h : Moves s t) : Moves s (accept z d a c v t) :=
  h.other ⟨rfl, rfl, rfl, rfl, rfl⟩

theorem finish (r : Result) (h : Moves s t) : Moves s (finish r t) := h.other ⟨rfl, rfl, rfl, rfl, rfl⟩

theorem failWith (c : FailCode) (h : Moves s t) : Moves s (failWith c t) := h.finish _

theorem enter (p : Phase) (h : Moves s t) : Moves s (enter p t) := h.other ⟨rfl, rfl, rfl, rfl, rfl⟩

theorem nextEvent (h : Moves s t) : Moves s (nextEvent t) := h.other ⟨rfl, rfl, rfl, rfl, rfl⟩

theorem setData (b : Bool) (h : Moves s t) : Moves s (setData b t) := setData_eq t b ▸ h.lines _ _

theorem clockOn (h : Moves s t) : Moves s (clockOn t) := clockOn_eq t ▸ h.lines _ _

theorem clockOff (h : Moves s t) : Moves s (clockOff t) := clockOff_eq t ▸ h.lines _ _

theorem readDataLine (h : Moves s t) : Moves s (readDataLine t).2 := (h.setData true).commit.read

/-! ### The Protocol Engine -/

theorem start (h : Moves s t) : Moves s (start t) := (h.commit.setData false).commit.clockOff.commit.clockOn.commit

theorem stop (h : Moves s t) : Moves s (stop t) :=
  ((h.setData false).commit.clockOn.commit.setData true).commit.clockOff.commit.clockOn.commit

theorem ackCheck (h : Moves s t) : Moves s (ackCheck t).2 :=
  (h.setData true).clockOn.commit.readDataLine.clockOff.commit.other ⟨rfl, rfl, rfl, rfl, rfl⟩

theorem sendBit (v : Byte) (i : Fin 8) (h : Moves s t) : Moves s (sendBit v i t) :=
  have h' : Moves s { t with bitIdx := i } := h.other ⟨rfl, rfl, rfl, rfl, rfl⟩
  ((h'.setData _).commit.clockOn.commit.setData _).clockOff.commit

theorem sendBits (v : Byte) (n : Nat) (h : Moves s t) : Moves s (sendBits v n t) := by
  induction n generalizing t with
  | zero => exact h
  | succ n ih => exact ih (h.sendBit v _)

theorem sendByte (v : Byte) (h : Moves s t) : Moves s (sendByte v t).2 := (h.sendBits v 8).ackCheck

theorem receiveBit (i : Fin 8) (h : Moves s t) : Moves s (receiveBit i t) :=
  have h' : Moves s { t with bitIdx := i } := h.other ⟨rfl, rfl, rfl, rfl, rfl⟩
  have hr := h'.commit.clockOn.readDataLine
  Moves.clockOff (Moves.commit (hr.other ⟨rfl, rfl, rfl, rfl, rfl⟩))

theorem receiveBits (n : Nat) (h : Moves s t) : Moves s (receiveBits n t) := by
  induction n generalizing t with
  | zero => exact h
  | succ n ih => exact ih (h.receiveBit _)

theorem readByte (h : Moves s t) : Moves s (readByte t).2 :=
  have h' : Moves s { Machine.commit (Machine.clockOff t) with rxAcc := 0 } :=
    h.clockOff.commit.other ⟨rfl, rfl, rfl, rfl, rfl⟩
  (h'.receiveBits 8).ackCheck.other ⟨rfl, rfl, rfl, rfl, rfl⟩

theorem busBusy (h : Moves s t) : Moves s (busBusy t).2 := h.readDataLine

/-! ### The adapter -/

theorem stopAndFail (c : FailCode) (h : Moves s t) : Moves s (stopAndFail c t) := h.stop.failWith c

theorem readPath (h : Moves s t) : Moves s (readPath t) := by
  dsimp only [Machine.readPath]
  split
  · exact h.readByte.stop.failWith _
  · exact h.readByte.stop.finish _

theorem writePath (h : Moves s t) : Moves s (writePath t) := by
  have hc := h.sendByte t.tCmd
  dsimp only [Machine.writePath]
  split_ifs
  · exact hc.stopAndFail _
  · exact (hc.sendByte _).stopAndFail _
  · exact (hc.sendByte _).stop.finish _
  · exact hc.stop.finish _

theorem transact (h : Moves s t) : Moves s (transact t) := by
  have h' : Moves s { t with aByte := addressByte t.tAddr t.tDir } := h.other ⟨rfl, rfl, rfl, rfl, rfl⟩
  have ha := h'.start.sendByte (addressByte t.tAddr t.tDir)
  dsimp only [Machine.transact]
  split
  · exact ha.stopAndFail _
  · split
    · exact ha.readPath
    · exact ha.writePath

theorem access (h : Moves s t) : Moves s (access t) := by
  dsimp only [Machine.access]
  split_ifs
  · exact h.busBusy.failWith _
  · exact h.busBusy.failWith _
  · exact h.busBusy.transact

theorem trans {u : State} (h : Moves s t) (h' : Moves t u) : Moves s u := by
  induction h' with
  | refl => exact h
  | lines c d _ ih => exact ih.lines c d
  | commit _ ih => exact ih.commit
  | read _ ih => exact ih.read
  | other _ hw ih => exact ih.other hw

end Moves

/-! ### Operations, events and steps -/

section
variable {s t : State}

theorem request_moves {z : Byte} {d : Dir} {a : SlaveAddr} {c v : Byte} (h : request z d a c v s = .next t) :
    Moves s t := by
  by_cases hp : s.phase = .idle
  · rw [request_idle s hp] at h
    cases h
    exact (Moves.refl.accept ..).access
  · rw [request_inFlight s hp] at h
    cases h

theorem exec_moves {i : Instr} (h : exec i s = .next t) : Moves s t := by
  cases i with
  | wrb | rdb | wrbd | rdbd | unsup => exact request_moves h
  | setdata b => cases h; exact (Moves.refl.setData b).returnWith _
  | clockon => cases h; exact Moves.refl.clockOn.returnWith _
  | clockoff => cases h; exact Moves.refl.clockOff.returnWith _
  | commit => cases h; exact Moves.refl.commit.returnWith _
  | readdataline => cases h; exact Moves.refl.readDataLine.returnWith _
  | start => cases h; exact Moves.refl.start.returnWith _
  | stop => cases h; exact Moves.refl.stop.returnWith _
  | readbit => cases h; exact Moves.refl.readDataLine.returnWith _
  | ackcheck => cases h; exact Moves.refl.ackCheck.returnWith _
  | sendbyte v => cases h; exact (Moves.refl.sendByte v).returnWith _
  | readbyte => cases h; exact Moves.refl.readByte.returnWith _
  | busbusy => cases h; exact Moves.refl.busBusy.returnWith _

theorem buschkEvent_moves (k : Nat) : Moves s (buschkEvent k s) := by
  rcases k with _ | k
  · exact (Moves.refl.setData true).commit.nextEvent
  · have hr : Moves s (memRead .ctrl s).2 := Moves.refl.read
    dsimp only [buschkEvent]
    split_ifs
    · exact hr.failWith _
    · exact hr.failWith _
    · exact Moves.enter _ (hr.other ⟨rfl, rfl, rfl, rfl, rfl⟩)

theorem startEvent_moves (k : Nat) : Moves s (startEvent k s) :=
  match k with
  | 0 => Moves.refl.commit.nextEvent
  | 1 => (Moves.refl.setData false).commit.nextEvent
  | 2 => Moves.refl.clockOff.commit.nextEvent
  | _ + 3 => Moves.refl.clockOn.commit.enter _

theorem txBitEvent_moves (which : TxByte) (i : Fin 8) (k : Nat) : Moves s (txBitEvent which i k s) :=
  match k with
  | 0 =>
    have h : Moves s { s with bitIdx := i } := Moves.refl.other ⟨rfl, rfl, rfl, rfl, rfl⟩
    (h.setData _).commit.nextEvent
  | 1 => Moves.refl.clockOn.commit.nextEvent
  | _ + 2 => (Moves.refl.setData _).clockOff.commit.enter _

theorem ackEvent_moves (k : Nat) {after : State → State} (ha : ∀ t, Moves s t → Moves s (after t)) :
    Moves s (ackEvent k after s) :=
  match k with
  | 0 => (Moves.refl.setData true).clockOn.commit.nextEvent
  | 1 => (Moves.refl.setData true).commit.nextEvent
  | 2 => Moves.nextEvent (Moves.refl.read.other ⟨rfl, rfl, rfl, rfl, rfl⟩)
  | _ + 3 => ha _ Moves.refl.clockOff.commit

theorem rxBitEvent_moves (i : Fin 8) (k : Nat) : Moves s (rxBitEvent i k s) :=
  match k with
  | 0 =>
    have h : Moves s { s with bitIdx := i } := Moves.refl.other ⟨rfl, rfl, rfl, rfl, rfl⟩
    h.commit.nextEvent
  | 1 => (Moves.refl.clockOn.setData true).commit.nextEvent
  | 2 => Moves.nextEvent (Moves.refl.read.other ⟨rfl, rfl, rfl, rfl, rfl⟩)
  | _ + 3 => Moves.refl.commit.clockOff.enter _

theorem rxEvent_moves (i : Fin 8) (k : Nat) : Moves s (rxEvent i k s) := by
  unfold rxEvent
  split_ifs
  · rcases k with _ | k
    · exact Moves.nextEvent (Moves.refl.clockOff.commit.other ⟨rfl, rfl, rfl, rfl, rfl⟩)
    · exact rxBitEvent_moves i k
  · exact rxBitEvent_moves i k

theorem stopEvent_moves (why : StopFrom) (k : Nat) : Moves s (stopEvent why k s) :=
  match k with
  | 0 => (Moves.refl.setData false).commit.nextEvent
  | 1 => Moves.refl.clockOn.commit.nextEvent
  | 2 => (Moves.refl.setData true).commit.nextEvent
  | 3 => Moves.refl.clockOff.commit.nextEvent
  | _ + 4 => Moves.refl.clockOn.commit.finish _

theorem eventStep_moves (s : State) : Moves s (eventStep s) := by
  unfold eventStep
  split
  · exact .refl
  · exact buschkEvent_moves _
  · exact startEvent_moves _
  · exact txBitEvent_moves _ _ _
  · exact ackEvent_moves _ fun t ht => ht.enter _
  · exact rxEvent_moves _ _
  · exact ackEvent_moves _ fun t ht => Moves.enter _ (ht.other ⟨rfl, rfl, rfl, rfl, rfl⟩)
  · exact stopEvent_moves _ _

/-- Whatever the step, the window only moves. -/
theorem step_moves (h : step s = .next t) : Moves s t := by
  obtain ⟨-, -, e⟩ | ⟨p, rest, i, -, -, -, e⟩ | ⟨p, rest, err, -, -, -, e⟩ | ⟨-, e⟩ := step_cases s <;>
    rw [e] at h
  · cases h; exact .refl
  · have h' : Moves s { s with input := rest } := Moves.refl.other ⟨rfl, rfl, rfl, rfl, rfl⟩
    exact h'.trans (exec_moves h)
  · cases h
  · cases h; exact eventStep_moves s

end
end Sys2Proof.Machine

/-! SUPPORT. The invariants of the parameters, the shadow, the register window and the trace (spec/10_state.md R11, R12,
R20, R21, R23): each holds at reset and every primitive move keeps it, so every step does. -/

namespace Sys2Proof.Machine

variable {s t : State}

/-! ### The last write and the writes to the initialisation register, event by event -/

@[simp] theorem lastCtrlWrite_append_write (p : Params) (tr : List Event) (v : Word) :
    lastCtrlWrite p (tr ++ [.write p.ctrlOffset v]) = some v := by
  simp [lastCtrlWrite, List.filterMap_append]

@[simp] theorem lastCtrlWrite_append_read (p : Params) (tr : List Event) (off : Int) (w : Word) :
    lastCtrlWrite p (tr ++ [.read off w]) = lastCtrlWrite p tr := by
  simp [lastCtrlWrite, List.filterMap_append]

@[simp] theorem lastCtrlWrite_initWrite (p : Params) (v : Word) : lastCtrlWrite p [.write p.initOffset v] = none := by
  simp [lastCtrlWrite, p.offsets_differ]

@[simp] theorem numInitWrites_ctrlWrite (p : Params) (v : Word) : numInitWrites p [.write p.ctrlOffset v] = 0 := by
  simp [numInitWrites, p.offsets_differ.symm]

@[simp] theorem numInitWrites_read (p : Params) (off : Int) (w : Word) : numInitWrites p [.read off w] = 0 := rfl

@[simp] theorem numInitWrites_initWrite (p : Params) (v : Word) : numInitWrites p [.write p.initOffset v] = 1 := by
  simp [numInitWrites]

/-! ### The invariants along moves -/

theorem Moves.cfg_eq (h : Moves s t) : t.cfg = s.cfg := by
  induction h with
  | refl => rfl
  | lines _ _ _ ih | commit _ ih | read _ ih => exact ih
  | other _ hw ih => exact hw.cfg.trans ih

theorem Moves.trace_grows (h : Moves s t) : ∃ tr, t.trace = s.trace ++ tr := by
  induction h with
  | refl => exact ⟨[], (List.append_nil _).symm⟩
  | lines _ _ _ ih => exact ih
  | @commit t _ ih | @read t _ ih =>
    obtain ⟨tr, e⟩ := ih
    exact ⟨_, by simp only [commit_trace, memRead_trace, e, List.append_assoc]; rfl⟩
  | other _ hw ih => rwa [hw.trace]

theorem Moves.enableBitsKept (h : Moves s t) (hs : EnableBitsKept s) : EnableBitsKept t := by
  induction h with
  | refl => exact hs
  | lines c d _ ih => exact ⟨by simpa using ih.1, ih.2⟩
  | commit _ ih =>
    obtain ⟨hsh, htr⟩ := ih
    refine ⟨hsh, fun v hv => ?_⟩
    rcases List.mem_append.mp hv with hv | hv
    · exact htr v hv
    · cases List.mem_singleton.mp hv; exact hsh
  | read _ ih =>
    obtain ⟨hsh, htr⟩ := ih
    refine ⟨hsh, fun v hv => ?_⟩
    rcases List.mem_append.mp hv with hv | hv
    · exact htr v hv
    · cases List.mem_singleton.mp hv
  | other _ hw ih => simpa only [EnableBitsKept, hw.cfg, hw.shadow, hw.trace] using ih

theorem Moves.initWrittenOnce (h : Moves s t) (hs : InitWrittenOnce s) : InitWrittenOnce t := by
  induction h with
  | refl => exact hs
  | lines _ _ _ ih => exact ih
  | commit _ ih | read _ ih =>
    obtain ⟨hn, hm, hr⟩ := ih
    exact ⟨by simpa using hn, List.mem_append_left _ hm, hr⟩
  | other _ hw ih => simpa only [InitWrittenOnce, hw.cfg, hw.initReg, hw.trace] using ih

theorem Moves.ctrlHoldsLastWrite (h : Moves s t) (hs : CtrlHoldsLastWrite s) : CtrlHoldsLastWrite t := by
  induction h with
  | refl => exact hs
  | lines _ _ _ ih => exact ih
  | commit _ _ => intro v hv; simpa using hv
  | read _ ih => intro v hv; exact ih v (by simpa using hv)
  | other _ hw ih => simpa only [CtrlHoldsLastWrite, hw.cfg, hw.ctrlReg, hw.trace] using ih

/-! ### Reset -/

theorem resetWith_enableBitsKept (p : Params) : EnableBitsKept (State.resetWith p) := by
  refine ⟨rfl, fun v hv => ?_⟩
  injection List.mem_singleton.mp hv with ho
  exact absurd ho.symm p.offsets_differ

theorem resetWith_initWrittenOnce (p : Params) : InitWrittenOnce (State.resetWith p) :=
  ⟨numInitWrites_initWrite p _, List.mem_singleton_self _, rfl⟩

theorem resetWith_lastCtrlWrite (p : Params) : lastCtrlWrite p (State.resetWith p).trace = none :=
  lastCtrlWrite_initWrite p _

/-! ### The obligations -/

/-- Settles O47: setting line bits keeps the 30 others, and a COMMIT writes the shadow. -/
theorem everyStepKeepsTheEnableBits : Obligations.EveryStepKeepsTheEnableBits :=
  fun _ _ hs h => (step_moves h).enableBitsKept hs

/-- Settles O49: no move writes at the initialisation offset. -/
theorem everyStepLeavesTheInitRegister : Obligations.EveryStepLeavesTheInitRegister :=
  fun _ _ hs h => (step_moves h).initWrittenOnce hs

/-- Settles O51: a COMMIT puts the same word into the register and at the end of the trace. -/
theorem everyStepKeepsTheLastWrite : Obligations.EveryStepKeepsTheLastWrite :=
  fun _ _ hs h => (step_moves h).ctrlHoldsLastWrite hs

/-- Settles O56: no move changes the parameters, and each appends to the trace or leaves it. -/
theorem parametersStayAndTheTraceGrows : Obligations.ParametersStayAndTheTraceGrows :=
  fun _ _ h => ⟨(step_moves h).cfg_eq, (step_moves h).trace_grows⟩

/-- Settles O48: the shadow is `SHADOW_INIT`, and the one write of the trace is at the other offset. -/
theorem resetKeepsTheEnableBits : Obligations.ResetKeepsTheEnableBits := resetWith_enableBitsKept Config.params

/-- Settles O50: the trace at reset is the one write of `INIT_VALUE`. -/
theorem resetWritesTheInitRegisterOnce : Obligations.ResetWritesTheInitRegisterOnce :=
  resetWith_initWrittenOnce Config.params

/-- Settles O52: the one write of the trace is at the other offset. -/
theorem resetHasNoCommittedWord : Obligations.ResetHasNoCommittedWord := by
  have hn : lastCtrlWrite State.reset.cfg State.reset.trace = none := resetWith_lastCtrlWrite Config.params
  exact ⟨fun v hv => by simp [hn] at hv, hn⟩

end Sys2Proof.Machine

/-! SUPPORT. The sequencer's events put together (spec/10_state.md R19): the events of START, of a byte, of an
acknowledge and of STOP end where the operation of that name ends, and so the events of a transaction end where `access`
ends. -/

namespace Sys2Proof.Machine

/-- A transaction in flight goes on by one event. R19. -/
def EventTo (s t : State) : Prop := s.phase ≠ .idle ∧ eventStep s = t

/-- A transaction in flight goes on by any number of events. R19. -/
abbrev EventRun : State → State → Prop := Relation.ReflTransGen EventTo

/-- The state with the sequencer at event `k` of phase `p`. R19. -/
def State.atEvent (s : State) (p : Phase) (k : Nat) : State := { s with phase := p, evt := k }

variable (s : State)

/-! ### Runs of the machine -/

theorem run_succ_of_step {s t : State} (h : step s = .next t) (k : Nat) :
    Host.Core.run Sys2Proof.core (k + 1) s = Host.Core.run Sys2Proof.core k t := by
  have h' : Sys2Proof.core.step s = .next t := h
  simp only [Host.Core.run, h']

theorem step_inFlight {s : State} (h : s.phase ≠ .idle) : step s = .next (eventStep s) := if_neg h

/-! ### One event of the trace per event of a transaction -/

theorem buschkEvent_trace_length (k : Nat) : (buschkEvent k s).trace.length = s.trace.length + 1 := by
  rcases k with _ | k
  · simp [buschkEvent]
  · dsimp only [buschkEvent]
    split_ifs <;> simp

theorem startEvent_trace_length (k : Nat) : (startEvent k s).trace.length = s.trace.length + 1 := by
  rcases k with _ | _ | _ | k <;> simp [startEvent]

theorem txBitEvent_trace_length (which : TxByte) (i : Fin 8) (k : Nat) :
    (txBitEvent which i k s).trace.length = s.trace.length + 1 := by
  rcases k with _ | _ | k <;> simp [txBitEvent]

theorem ackEvent_trace_length (k : Nat) {after : State → State} (ha : ∀ t, (after t).trace = t.trace) :
    (ackEvent k after s).trace.length = s.trace.length + 1 := by
  rcases k with _ | _ | _ | k <;> simp [ackEvent, ha]

theorem rxBitEvent_trace_length (i : Fin 8) (k : Nat) : (rxBitEvent i k s).trace.length = s.trace.length + 1 := by
  rcases k with _ | _ | _ | k <;> simp [rxBitEvent]

theorem rxEvent_trace_length (i : Fin 8) (k : Nat) : (rxEvent i k s).trace.length = s.trace.length + 1 := by
  unfold rxEvent
  split_ifs
  · rcases k with _ | k
    · simp
    · exact rxBitEvent_trace_length s i k
  · exact rxBitEvent_trace_length s i k

theorem stopEvent_trace_length (why : StopFrom) (k : Nat) :
    (stopEvent why k s).trace.length = s.trace.length + 1 := by
  rcases k with _ | _ | _ | _ | k <;> simp [stopEvent]

/-- Every event of a transaction is one event of the trace. -/
theorem eventStep_trace_length (h : s.phase ≠ .idle) : (eventStep s).trace.length = s.trace.length + 1 := by
  unfold eventStep
  split
  next hi => exact absurd hi h
  · exact buschkEvent_trace_length ..
  · exact startEvent_trace_length ..
  · exact txBitEvent_trace_length ..
  · exact ackEvent_trace_length _ _ fun _ => rfl
  · exact rxEvent_trace_length ..
  · exact ackEvent_trace_length _ _ fun _ => rfl
  · exact stopEvent_trace_length ..

theorem EventRun.run {s t : State} (h : EventRun s t) :
    ∃ n, Host.Core.run Sys2Proof.core n s = .next t ∧ t.trace.length = s.trace.length + n := by
  induction h using Relation.ReflTransGen.head_induction_on with
  | refl => exact ⟨0, rfl, rfl⟩
  | @head s u hu _ ih =>
    obtain ⟨hp, rfl⟩ := hu
    obtain ⟨n, hr, hl⟩ := ih
    refine ⟨n + 1, (run_succ_of_step (step_inFlight hp) n).trans hr, ?_⟩
    rw [hl, eventStep_trace_length s hp]
    omega

/-! ### The phases -/

theorem start_events : EventRun (s.atEvent .start 0) ((start s).atEvent (.tx .addr (.bit 7)) 0) := by
  have h0 (t : State) : EventTo (t.atEvent .start 0) ((commit t).atEvent .start 1) := ⟨nofun, rfl⟩
  have h1 (t : State) : EventTo (t.atEvent .start 1) ((commit (setData false t)).atEvent .start 2) := ⟨nofun, rfl⟩
  have h2 (t : State) : EventTo (t.atEvent .start 2) ((commit (clockOff t)).atEvent .start 3) := ⟨nofun, rfl⟩
  have h3 (t : State) : EventTo (t.atEvent .start 3) ((commit (clockOn t)).atEvent (.tx .addr (.bit 7)) 0) :=
    ⟨nofun, rfl⟩
  exact .head (h0 _) (.head (h1 _) (.head (h2 _) (.single (h3 _))))

theorem stop_events (why : StopFrom) :
    EventRun (s.atEvent (.stop why) 0) (finish (resultAfterStop why (stop s)) (stop s)) := by
  let p := Phase.stop why
  have h0 (t : State) : EventTo (t.atEvent p 0) ((commit (setData false t)).atEvent p 1) := ⟨nofun, rfl⟩
  have h1 (t : State) : EventTo (t.atEvent p 1) ((commit (clockOn t)).atEvent p 2) := ⟨nofun, rfl⟩
  have h2 (t : State) : EventTo (t.atEvent p 2) ((commit (setData true t)).atEvent p 3) := ⟨nofun, rfl⟩
  have h3 (t : State) : EventTo (t.atEvent p 3) ((commit (clockOff t)).atEvent p 4) := ⟨nofun, rfl⟩
  have h4 (t : State) : EventTo (t.atEvent p 4)
    (finish (resultAfterStop why (commit (clockOn t))) (commit (clockOn t))) := ⟨nofun, by cases why <;> rfl⟩
  exact .head (h0 _) (.head (h1 _) (.head (h2 _) (.head (h3 _) (.single (h4 _)))))

theorem txBit_events (which : TxByte) (i : Fin 8) :
    EventRun (s.atEvent (.tx which (.bit i)) 0)
      ((sendBit (txOperand which s) i s).atEvent (.tx which (slotAfter i)) 0) := by
  let p := Phase.tx which (.bit i)
  have h0 (t : State) : EventTo (t.atEvent p 0)
      ((commit (setData (bitToSend (txOperand which t) i) { t with bitIdx := i })).atEvent p 1) :=
    ⟨nofun, by cases which <;> rfl⟩
  have h1 (t : State) : EventTo (t.atEvent p 1) ((commit (clockOn t)).atEvent p 2) := ⟨nofun, rfl⟩
  have h2 (t : State) : EventTo (t.atEvent p 2)
      ((commit (clockOff (setData (bitToSend (txOperand which t) i) t))).atEvent (.tx which (slotAfter i)) 0) :=
    ⟨nofun, by cases which <;> rfl⟩
  have h := Relation.ReflTransGen.head (h0 s) (.head (h1 _) (.single (h2 _)))
  cases which <;> exact h

/-- The four events of an acknowledge slot, in the phase `p` that goes on to `after`. R70. -/
theorem ack_events (p : Phase) (after : State → State)
    (hp : ∀ (t : State) k, EventTo (t.atEvent p k) (ackEvent k after (t.atEvent p k))) :
    EventRun (s.atEvent p 0) (after ((ackCheck s).2.atEvent p 3)) := by
  have h0 (t : State) : EventTo (t.atEvent p 0) ((commit (clockOn (setData true t))).atEvent p 1) := hp t 0
  have h1 (t : State) : EventTo (t.atEvent p 1) ((commit (setData true t)).atEvent p 2) := hp t 1
  have h2 (t : State) : EventTo (t.atEvent p 2)
      (State.atEvent { (memRead .ctrl t).2 with ackF := ackFlag t.cfg (t.cfg.sdi (memRead .ctrl t).1) } p 3) := hp t 2
  have h3 (t : State) : EventTo (t.atEvent p 3) (after ((commit (clockOff t)).atEvent p 3)) := hp t 3
  exact .head (h0 _) (.head (h1 _) (.head (h2 _) (.single (h3 _))))

theorem txAck_events (which : TxByte) :
    EventRun (s.atEvent (.tx which .ack) 0) ((ackCheck s).2.atEvent (afterAck which (ackCheck s).2) 0) :=
  ack_events s _ (fun t => enter (afterAck which t) t) fun _ _ => ⟨nofun, rfl⟩

theorem rxAck_events : EventRun (s.atEvent (.rx .ack) 0)
    (State.atEvent { (ackCheck s).2 with rdFail := rdFailFlag (ackCheck s).1 } (.stop .readEnd) 0) :=
  ack_events s _ (fun t => enter (.stop .readEnd) { t with rdFail := rdFailFlag t.ackF }) fun _ _ => ⟨nofun, rfl⟩

/-- The four events of a bit of READBYTE, which begin at event `o` of its slot. R73. -/
theorem rxBit_events_from (i : Fin 8) (o : Nat) (ho : ∀ k t, rxEvent i (o + k) t = rxBitEvent i k t) :
    EventRun (s.atEvent (.rx (.bit i)) o) ((receiveBit i s).atEvent (.rx (slotAfter i)) 0) := by
  let p := Phase.rx (.bit i)
  have hp (t : State) (k : Nat) : EventTo (t.atEvent p (o + k)) (rxBitEvent i k (t.atEvent p (o + k))) :=
    ⟨nofun, ho k _⟩
  have h0 (t : State) : EventTo (t.atEvent p o) ((commit { t with bitIdx := i }).atEvent p (o + 1)) := hp t 0
  have h1 (t : State) : EventTo (t.atEvent p (o + 1)) ((commit (setData true (clockOn t))).atEvent p (o + 2)) := hp t 1
  have h2 (t : State) : EventTo (t.atEvent p (o + 2)) (State.atEvent
      { (memRead .ctrl t).2 with rxAcc := accumulate t.rxAcc (t.cfg.sdi (memRead .ctrl t).1) i } p (o + 3)) := hp t 2
  have h3 (t : State) : EventTo (t.atEvent p (o + 3)) ((clockOff (commit t)).atEvent (.rx (slotAfter i)) 0) := hp t 3
  exact .head (h0 _) (.head (h1 _) (.head (h2 _) (.single (h3 _))))

theorem rxBit_events {i : Fin 8} (hi : i ≠ 7) :
    EventRun (s.atEvent (.rx (.bit i)) 0) ((receiveBit i s).atEvent (.rx (slotAfter i)) 0) :=
  rxBit_events_from s i 0 fun k t => by rw [Nat.zero_add]; exact if_neg hi

theorem rxOpening_events :
    EventRun (s.atEvent (.rx (.bit 7)) 0)
      ((receiveBit 7 { commit (clockOff s) with rxAcc := 0 }).atEvent (.rx (.bit 6)) 0) :=
  have h0 : EventTo (s.atEvent (.rx (.bit 7)) 0)
    (State.atEvent { commit (clockOff s) with rxAcc := 0 } (.rx (.bit 7)) 1) := ⟨nofun, rfl⟩
  .head h0 (rxBit_events_from _ 7 1 fun k t => by rw [Nat.add_comm]; rfl)

/-! ### The bytes -/

theorem slotAfter_succ {n : Nat} (hn : n < 7) : slotAfter (Fin.ofNat 8 (n + 1)) = .bit (Fin.ofNat 8 n) := by
  have hv : (Fin.ofNat 8 (n + 1)).val = n + 1 := Nat.mod_eq_of_lt (by omega)
  simp only [slotAfter, hv]

@[simp] theorem txOperand_sendBit (which : TxByte) (v : Byte) (i : Fin 8) :
    txOperand which (sendBit v i s) = txOperand which s := by cases which <;> rfl

theorem txBits_events (which : TxByte) {n : Nat} (hn : n < 8) :
    EventRun (s.atEvent (.tx which (.bit (Fin.ofNat 8 n))) 0)
      ((sendBits (txOperand which s) (n + 1) s).atEvent (.tx which .ack) 0) := by
  induction n generalizing s with
  | zero => exact txBit_events s which 0
  | succ n ih =>
    have hb := txBit_events s which (Fin.ofNat 8 (n + 1))
    rw [slotAfter_succ (by omega)] at hb
    have hr := ih (sendBit (txOperand which s) (Fin.ofNat 8 (n + 1)) s) (by omega)
    rw [txOperand_sendBit] at hr
    exact hb.trans hr

theorem rxBits_events {n : Nat} (hn : n < 7) :
    EventRun (s.atEvent (.rx (.bit (Fin.ofNat 8 n))) 0) ((receiveBits (n + 1) s).atEvent (.rx .ack) 0) := by
  induction n generalizing s with
  | zero => exact rxBit_events s (by decide)
  | succ n ih =>
    have hi : Fin.ofNat 8 (n + 1) ≠ 7 := by
      intro h
      have hv : (n + 1) % 8 = 7 := congrArg Fin.val h
      omega
    have hb := rxBit_events s hi
    rw [slotAfter_succ (by omega)] at hb
    exact hb.trans (ih _ (by omega))

/-- The events of a byte sent end where SENDBYTE ends, in the phase its acknowledge slot goes on to. R71. -/
theorem sendByte_events (which : TxByte) {p : Phase} (h : afterAck which (sendByte (txOperand which s) s).2 = p) :
    EventRun (s.atEvent (.tx which (.bit 7)) 0) ((sendByte (txOperand which s) s).2.atEvent p 0) :=
  h ▸ (txBits_events s which (n := 7) (by decide)).trans (txAck_events _ which)

/-- The events of a byte received end where READBYTE ends. R73. -/
theorem readByte_events : EventRun (s.atEvent (.rx (.bit 7)) 0) ((readByte s).2.atEvent (.stop .readEnd) 0) :=
  ((rxOpening_events s).trans (rxBits_events _ (n := 6) (by decide))).trans (rxAck_events _)

/-! ### The phase after an acknowledge slot, case by case -/

section
variable {t : State}

theorem afterAck_addr_nak (h : t.ackF = false) : afterAck .addr t = .stop .addrNak := by simp [afterAck, h]

theorem afterAck_addr_read (h : t.ackF = true) (hd : t.tDir = .read) : afterAck .addr t = .rx (.bit 7) := by
  simp [afterAck, h, hd]

theorem afterAck_addr_write (h : t.ackF = true) (hd : t.tDir = .write) : afterAck .addr t = .tx .cmd (.bit 7) := by
  simp [afterAck, h, hd]

theorem afterAck_cmd_nak (h : t.ackF = false) : afterAck .cmd t = .stop .dataNak := by simp [afterAck, h]

theorem afterAck_cmd_more (h : t.ackF = true) (hz : t.tSize = sizeByteData) :
    afterAck .cmd t = .tx .data (.bit 7) := by simp [afterAck, h, hz]

theorem afterAck_cmd_last (h : t.ackF = true) (hz : t.tSize ≠ sizeByteData) : afterAck .cmd t = .stop .writeEnd := by
  simp [afterAck, h, hz]

theorem afterAck_data_nak (h : t.ackF = false) : afterAck .data t = .stop .dataNak := by simp [afterAck, h]

theorem afterAck_data_ack (h : t.ackF = true) : afterAck .data t = .stop .writeEnd := by simp [afterAck, h]

end

/-! ### The paths of `access` -/

theorem readPath_eq :
    readPath s = finish (resultAfterStop .readEnd (stop (readByte s).2)) (stop (readByte s).2) := by
  simp only [readPath, resultAfterStop]
  split_ifs <;> rfl

theorem readPath_events : EventRun (s.atEvent (.rx (.bit 7)) 0) (readPath s) :=
  readPath_eq s ▸ (readByte_events s).trans (stop_events _ _)

/-- A byte whose acknowledge slot goes on to STOP, and the STOP. R90, R105. -/
theorem sendByte_stop_events (which : TxByte) {why : StopFrom}
    (h : afterAck which (sendByte (txOperand which s) s).2 = .stop why) :
    EventRun (s.atEvent (.tx which (.bit 7)) 0)
      (finish (resultAfterStop why (stop (sendByte (txOperand which s) s).2))
        (stop (sendByte (txOperand which s) s).2)) :=
  (sendByte_events s which h).trans (stop_events _ why)

theorem writePath_events : EventRun (s.atEvent (.tx .cmd (.bit 7)) 0) (writePath s) := by
  dsimp only [writePath]
  split_ifs with hc hz hd <;> simp only [Bool.not_eq_true', Bool.not_eq_false] at *
  · exact sendByte_stop_events s .cmd (afterAck_cmd_nak hc)
  · exact (sendByte_events s .cmd (afterAck_cmd_more hc hz)).trans
      (sendByte_stop_events _ .data (afterAck_data_nak hd))
  · exact (sendByte_events s .cmd (afterAck_cmd_more hc hz)).trans
      (sendByte_stop_events _ .data (afterAck_data_ack hd))
  · exact sendByte_stop_events s .cmd (afterAck_cmd_last hc hz)

theorem transact_events :
    EventRun (State.atEvent { s with aByte := addressByte s.tAddr s.tDir } .start 0) (transact s) := by
  refine (start_events _).trans ?_
  dsimp only [transact]
  generalize hu : start { s with aByte := addressByte s.tAddr s.tDir } = u
  have hv : addressByte s.tAddr s.tDir = txOperand .addr u := by rw [← hu]; rfl
  rw [hv]
  split_ifs with ha <;> simp only [Bool.not_eq_true', Bool.not_eq_false] at ha
  · exact sendByte_stop_events u .addr (afterAck_addr_nak ha)
  · split
    next hd => exact (sendByte_events u .addr (afterAck_addr_read ha hd)).trans (readPath_events _)
    next hd => exact (sendByte_events u .addr (afterAck_addr_write ha hd)).trans (writePath_events _)

/-- The last event of `BUSCHK`, by its two tests. R80, R82. -/
theorem buschk_lastEvent : eventStep ((commit (setData true s)).atEvent .buschk 1) =
    if (busBusy s).1 then failWith .busBusy (busBusy s).2
    else if sizeUnsupported (busBusy s).2.tSize then failWith .unsupported (busBusy s).2
    else State.atEvent
      { (busBusy s).2 with aByte := addressByte (busBusy s).2.tAddr (busBusy s).2.tDir } .start 0 := rfl

theorem access_events : EventRun (s.atEvent .buschk 0) (access s) := by
  have h0 : EventTo (s.atEvent .buschk 0) ((commit (setData true s)).atEvent .buschk 1) := ⟨nofun, rfl⟩
  have h1 : EventTo ((commit (setData true s)).atEvent .buschk 1) _ := ⟨nofun, buschk_lastEvent s⟩
  refine .head h0 (.head h1 ?_)
  dsimp only [access]
  split_ifs
  · exact .refl
  · exact .refl
  · exact transact_events _

/-- From the accepted request the events lead to the end of `access`. R19. -/
theorem accepted_events (z : Byte) (d : Dir) (a : SlaveAddr) (c v : Byte) :
    EventRun (accept z d a c v s) (access (accept z d a c v s)) := access_events (accept z d a c v s)

/-! ### Requests as `exec` takes them -/

/-- A request word is offered with the fields it carries. R42, R45. -/
theorem exec_decodeReq (w : Word) :
    exec (decodeReq w) s = request (reqSize w) (reqDir w) (reqAddr w) (reqCommand w) (reqData w) s := by
  unfold decodeReq
  split_ifs with h1 h2
  · rw [h1]
    cases reqDir w <;> rfl
  · rw [h2]
    cases reqDir w <;> rfl
  · rfl

/-- Settles O57: phase by phase the events of R19 are the events of the operations `access` calls. -/
theorem eventStepsAgreeWithTheWholeAccess : Obligations.EventStepsAgreeWithTheWholeAccess := by
  intro s size dir addr cmd data h
  obtain ⟨n, hr, hl⟩ := (accepted_events s size dir addr cmd data).run
  refine ⟨_, n, ?_, hr, hl⟩
  simp [exec_decodeReq, request_idle s h]

end Sys2Proof.Machine

/-! SUPPORT. A transaction in order stays in order, event by event and so to the end of `access`; with the enable bits
kept, no run of a host's requests is refused (spec/41_protocol_engine.md R76, spec/60_exceptions.md R107, R115). -/

namespace Sys2Proof

variable (p : Params) (w : Word) (b : Bool)

@[simp] theorem Params.clk_setSdo : p.clk (p.setSdo w b) = p.clk w := by simp [p.setSdo_eq_withLines]
@[simp] theorem Params.sdo_setSdo : p.sdo (p.setSdo w b) = b := by simp [p.setSdo_eq_withLines]
@[simp] theorem Params.clk_setClk : p.clk (p.setClk w b) = b := by simp [p.setClk_eq_withLines]
@[simp] theorem Params.sdo_setClk : p.sdo (p.setClk w b) = p.sdo w := by simp [p.setClk_eq_withLines]

end Sys2Proof

namespace Sys2Proof.Machine

variable {s t : State}

/-- `InOrder` in the fields the simp set speaks of. -/
theorem inOrder_iff : InOrder s ↔ (∀ p ∈ s.input, ∃ w, p = .req w) ∧ s.evt < eventsOf s.phase ∧
    linesBefore s (s.cfg.clk s.shadow) (s.cfg.sdo s.shadow) := Iff.rfl

theorem eventsOf_pos : ∀ p : Phase, 0 < eventsOf p
  | .idle | .buschk | .start | .tx _ (.bit _) | .tx _ .ack | .rx .ack | .stop _ => Nat.succ_pos _
  | .rx (.bit i) => by simp only [eventsOf]; split_ifs <;> decide

/-- A phase entered with the lines its first event expects. -/
theorem inOrder_enter {p : Phase} (hr : OnlyRequests t) (hl : linesBefore (enter p t) t.clk t.sdo) :
    InOrder (enter p t) := ⟨hr, eventsOf_pos p, hl⟩

/-! ### One event -/

theorem buschkEvent_inOrder (h : InOrder s) (hp : s.phase = .buschk) : InOrder (buschkEvent s.evt s) := by
  rw [inOrder_iff] at h ⊢
  rcases hk : s.evt with _ | k
  · simp_all [buschkEvent, linesBefore, eventsOf]
  · dsimp only [buschkEvent]
    split_ifs <;> simp_all [linesBefore, eventsOf]

theorem startEvent_inOrder (h : InOrder s) (hp : s.phase = .start) : InOrder (startEvent s.evt s) := by
  rw [inOrder_iff] at h ⊢
  rcases hk : s.evt with _ | _ | _ | k <;> simp_all [startEvent, linesBefore, eventsOf]

/-- The slot after a data bit is the acknowledge or a bit other than the first. R19. -/
theorem slotAfter_cases (i : Fin 8) : slotAfter i = .ack ∨ ∃ j : Fin 8, j ≠ 7 ∧ slotAfter i = .bit j := by
  revert i
  decide

theorem txBitEvent_inOrder {which : TxByte} {i : Fin 8} (h : InOrder s) (hp : s.phase = .tx which (.bit i)) :
    InOrder (txBitEvent which i s.evt s) := by
  rw [inOrder_iff] at h ⊢
  rcases hk : s.evt with _ | _ | k
  · cases which
    case addr => by_cases hi : i = 7 <;> simp_all [txBitEvent, linesBefore, eventsOf]
    all_goals simp_all [txBitEvent, linesBefore, eventsOf]
  · cases which <;> simp_all [txBitEvent, linesBefore, eventsOf]
  · obtain hj | ⟨j, hj, hj'⟩ := slotAfter_cases i <;> cases which <;> simp_all [txBitEvent, linesBefore, eventsOf]

theorem ackEvent_inOrder {after : State → State} (h : InOrder s)
    (hp : (∃ which, s.phase = .tx which .ack) ∨ s.phase = .rx .ack)
    (ha : ∀ t, OnlyRequests t → t.clk = false → t.sdo = true → InOrder (after t)) :
    InOrder (ackEvent s.evt after s) := by
  have hr := h.1
  rw [inOrder_iff] at h
  rcases hk : s.evt with _ | _ | _ | k
  case succ.succ.succ =>
    refine ha _ hr (by simp [State.clk]) ?_
    obtain ⟨which, hp⟩ | hp := hp <;> simp_all [State.sdo, linesBefore]
  all_goals
    rw [inOrder_iff]
    obtain ⟨which, hp⟩ | hp := hp <;> simp_all [ackEvent, linesBefore, eventsOf]

/-- The phases an acknowledge slot of a SENDBYTE can go on to. R90. -/
theorem afterAck_cases (which : TxByte) (t : State) :
    (∃ why, afterAck which t = .stop why) ∨ afterAck which t = .rx (.bit 7) ∨
      afterAck which t = .tx .cmd (.bit 7) ∨ afterAck which t = .tx .data (.bit 7) := by
  cases hf : t.ackF with
  | false => cases which <;> simp [afterAck, hf]
  | true =>
    cases which with
    | addr => cases hd : t.tDir <;> simp [afterAck, hf, hd]
    | cmd => by_cases hz : t.tSize = sizeByteData <;> simp [afterAck, hf, hz]
    | data => simp [afterAck, hf]

/-- Each of those phases begins with the clock low and the data high. R76. -/
theorem afterAck_inOrder {which : TxByte} (hr : OnlyRequests t) (hc : t.clk = false) (hd : t.sdo = true) :
    InOrder (enter (afterAck which t) t) := by
  obtain ⟨why, e⟩ | e | e | e := afterAck_cases which t <;>
    exact inOrder_enter hr (by simp [e, linesBefore, hc, hd])

theorem rxEvent_inOrder {i : Fin 8} (h : InOrder s) (hp : s.phase = .rx (.bit i)) : InOrder (rxEvent i s.evt s) := by
  rw [inOrder_iff] at h ⊢
  by_cases hi : i = 7
  · subst hi
    rcases hk : s.evt with _ | _ | _ | _ | k <;>
      simp_all [rxEvent, rxBitEvent, linesBefore, eventsOf, slotAfter]
  · rcases hk : s.evt with _ | _ | _ | k
    case succ.succ.succ =>
      obtain hj | ⟨j, hj, hj'⟩ := slotAfter_cases i <;> simp_all [rxEvent, rxBitEvent, linesBefore, eventsOf]
    all_goals simp_all [rxEvent, rxBitEvent, linesBefore, eventsOf]

theorem stopEvent_inOrder {why : StopFrom} (h : InOrder s) (hp : s.phase = .stop why) :
    InOrder (stopEvent why s.evt s) := by
  rw [inOrder_iff] at h ⊢
  rcases hk : s.evt with _ | _ | _ | _ | k <;> simp_all [stopEvent, linesBefore, eventsOf]

theorem eventStep_inOrder (h : InOrder s) : InOrder (eventStep s) := by
  unfold eventStep
  split
  next => exact h
  next hp => exact buschkEvent_inOrder h hp
  next hp => exact startEvent_inOrder h hp
  next hp => exact txBitEvent_inOrder h hp
  next which hp => exact ackEvent_inOrder h (.inl ⟨which, hp⟩) fun _ => afterAck_inOrder
  next hp => exact rxEvent_inOrder h hp
  next hp => exact ackEvent_inOrder h (.inr hp) fun _ hr hc hd => inOrder_enter hr ⟨hc, hd⟩
  next hp => exact stopEvent_inOrder h hp

theorem EventRun.inOrder (h : EventRun s t) (hs : InOrder s) : InOrder t := by
  induction h with
  | refl => exact hs
  | tail _ hu ih =>
    obtain ⟨-, rfl⟩ := hu
    exact eventStep_inOrder ih

/-! ### One step and any run -/

/-- `IDLE` means clock and data high, as the bus check of an accepted request finds them. R107. -/
theorem accept_inOrder (h : InOrder s) (hp : s.phase = .idle) (z : Byte) (d : Dir) (a : SlaveAddr) (c v : Byte) :
    InOrder (accept z d a c v s) := by
  obtain ⟨hr, -, hl⟩ := h
  have hl' : s.clk = true ∧ s.sdo = true := by simpa only [linesBefore, hp] using hl
  exact ⟨hr, eventsOf_pos .buschk, hl'⟩

/-- A request word taken in `IDLE` is run to its result, in order. R78. -/
theorem exec_decodeReq_inOrder (h : InOrder s) (hp : s.phase = .idle) (w : Word) :
    ∃ t, exec (decodeReq w) s = .next t ∧ InOrder t := by
  rw [exec_decodeReq, request_idle s hp]
  exact ⟨_, rfl, EventRun.inOrder (accepted_events ..) (accept_inOrder h hp ..)⟩

theorem step_inOrder (h : InOrder s) : ∃ t, step s = .next t ∧ InOrder t := by
  obtain ⟨hr, he, hl⟩ := h
  obtain ⟨-, -, e⟩ | ⟨p, rest, i, hp, hin, hd, e⟩ | ⟨p, rest, err, -, hin, hd, -⟩ | ⟨-, e⟩ := step_cases s
  · exact ⟨s, e, hr, he, hl⟩
  · obtain ⟨w, rfl⟩ := hr p (by simp [hin])
    cases hd
    have hrest : InOrder { s with input := rest } := ⟨fun q hq => hr q (by simp [hin, hq]), he, hl⟩
    rw [e]
    exact exec_decodeReq_inOrder hrest hp w
  · obtain ⟨w, rfl⟩ := hr p (by simp [hin])
    cases hd
  · exact ⟨_, e, eventStep_inOrder ⟨hr, he, hl⟩⟩

/-- Settles O55: a step from a state in order answers a state in order, and the enable bits are kept along its moves. -/
theorem everyRunOfRequestsIsSafe : Obligations.EveryRunOfRequestsIsSafe := by
  intro k
  induction k with
  | zero => exact fun s ho hs => ⟨s, ⟨rfl, hs⟩, ho⟩
  | succ k ih =>
    intro s ho hs
    obtain ⟨u, hu, hou⟩ := step_inOrder ho
    obtain ⟨t, ⟨hrun, ht⟩, hot⟩ := ih u hou ((step_moves hu).enableBitsKept hs)
    exact ⟨t, ⟨(run_succ_of_step hu k).trans hrun, ht⟩, hot⟩

end Sys2Proof.Machine

/-! SUPPORT. Each event of the sequencer is one write or one read at the control offset (spec/20_memory.md R29, R30,
R36): phase by phase which of the two it is, and so what one step of a transaction in flight does to the window. -/

namespace Sys2Proof

variable (p : Params) (w : Word) (b : Bool)

@[simp] theorem Params.setSdo_and_otherMask : p.setSdo w b &&& p.otherMask = w &&& p.otherMask := by
  simp [p.setSdo_eq_withLines]

@[simp] theorem Params.setClk_and_otherMask : p.setClk w b &&& p.otherMask = w &&& p.otherMask := by
  simp [p.setClk_eq_withLines]

end Sys2Proof

namespace Sys2Proof.Machine

/-- From `s` to `t` one word was written at the control offset: the control register holds it, its other 30 bits are the
shadow's, and no answer was drawn. R29, R11. -/
def WritesOnce (s t : State) : Prop :=
  t.trace = s.trace ++ [.write s.cfg.ctrlOffset t.ctrlReg] ∧ t.env = s.env ∧
    t.ctrlReg &&& s.cfg.otherMask = s.shadow &&& s.cfg.otherMask

/-- From `s` to `t` the control offset was read once: one answer was drawn, and the shadow and the control register
stayed. R30, R31. -/
def ReadsOnce (s t : State) : Prop :=
  ∃ w, t.trace = s.trace ++ [.read s.cfg.ctrlOffset w] ∧ t.ctrlReg = s.ctrlReg ∧ t.shadow = s.shadow ∧
    Drawn s.env t.env [w]

/-- From `s` to `t` there was exactly one register event. R36. -/
abbrev AccessesOnce (s t : State) : Prop := WritesOnce s t ∨ ReadsOnce s t

/-- A COMMIT in a state that differs from `s` in line bits of the shadow and outside the window, if at all. R61. -/
theorem writesOnce_commit {s u : State} (hcfg : u.cfg = s.cfg) (htrace : u.trace = s.trace) (henv : u.env = s.env)
    (hother : u.shadow &&& s.cfg.otherMask = s.shadow &&& s.cfg.otherMask) : WritesOnce s (commit u) :=
  ⟨by simp [hcfg, htrace], henv, hother⟩

theorem readsOnce_memRead (s : State) : ReadsOnce s (memRead .ctrl s).2 := ⟨_, rfl, rfl, rfl, drawn_answer ..⟩

variable (s : State)

theorem buschkEvent_accessesOnce (k : Nat) : AccessesOnce s (buschkEvent k s) := by
  rcases k with _ | k
  · exact .inl (writesOnce_commit rfl rfl rfl (by simp))
  · have hr := readsOnce_memRead s
    dsimp only [buschkEvent]
    split_ifs
    · exact .inr hr
    · exact .inr hr
    · exact .inr hr

theorem startEvent_writesOnce (k : Nat) : WritesOnce s (startEvent k s) :=
  match k with
  | 0 => writesOnce_commit rfl rfl rfl rfl
  | 1 | 2 | _ + 3 => writesOnce_commit rfl rfl rfl (by simp)

theorem txBitEvent_writesOnce (which : TxByte) (i : Fin 8) (k : Nat) : WritesOnce s (txBitEvent which i k s) :=
  match k with
  | 0 | 1 | _ + 2 => writesOnce_commit rfl rfl rfl (by simp)

theorem ackEvent_accessesOnce (k : Nat) {after : State → State} (ha : ∀ t, WritesOnce s t → WritesOnce s (after t)) :
    AccessesOnce s (ackEvent k after s) :=
  match k with
  | 0 | 1 => .inl (writesOnce_commit rfl rfl rfl (by simp))
  | 2 => .inr (readsOnce_memRead s)
  | _ + 3 => .inl (ha _ (writesOnce_commit rfl rfl rfl (by simp)))

theorem rxBitEvent_accessesOnce (i : Fin 8) (k : Nat) : AccessesOnce s (rxBitEvent i k s) :=
  match k with
  | 0 => .inl (writesOnce_commit rfl rfl rfl rfl)
  | 1 => .inl (writesOnce_commit rfl rfl rfl (by simp))
  | 2 => .inr (readsOnce_memRead s)
  | _ + 3 => .inl (writesOnce_commit rfl rfl rfl rfl)

theorem rxEvent_accessesOnce (i : Fin 8) (k : Nat) : AccessesOnce s (rxEvent i k s) := by
  unfold rxEvent
  split_ifs
  · rcases k with _ | k
    · exact .inl (writesOnce_commit rfl rfl rfl (by simp))
    · exact rxBitEvent_accessesOnce s i k
  · exact rxBitEvent_accessesOnce s i k

theorem stopEvent_writesOnce (why : StopFrom) (k : Nat) : WritesOnce s (stopEvent why k s) :=
  match k with
  | 0 | 1 | 2 | 3 | _ + 4 => writesOnce_commit rfl rfl rfl (by simp)

/-- Every event of a transaction is one access to the control register. R36. -/
theorem eventStep_accessesOnce (h : s.phase ≠ .idle) : AccessesOnce s (eventStep s) := by
  unfold eventStep
  split
  next hi => exact absurd hi h
  · exact buschkEvent_accessesOnce ..
  · exact .inl (startEvent_writesOnce ..)
  · exact .inl (txBitEvent_writesOnce ..)
  · exact ackEvent_accessesOnce _ _ fun _ ht => ht
  · exact rxEvent_accessesOnce ..
  · exact ackEvent_accessesOnce _ _ fun _ ht => ht
  · exact .inl (stopEvent_writesOnce ..)

/-- Settles O13: a step in flight is one event of the sequencer, and that is one write or one read. -/
theorem inFlightStepIsOneEvent : Obligations.InFlightStepIsOneEvent := by
  intro s h
  obtain ⟨htrace, henv, hother⟩ | ⟨w, htrace, hctrl, hshadow, hdrawn⟩ := eventStep_accessesOnce s h
  · exact ⟨_, _, step_inFlight h, htrace, .inl ⟨_, rfl, rfl, henv, hother⟩⟩
  · exact ⟨_, _, step_inFlight h, htrace, .inr ⟨w, rfl, hctrl, hshadow, hdrawn⟩⟩

end Sys2Proof.Machine

/-! SUPPORT. Request words, micro-operation words, response words and address bytes in full (spec/30_encoding.md R42 to
R54): what the decoder and the encoder make of each, and the rows of the opcode map as tests of the size and direction. -/

namespace Sys2Proof.Machine

/-! ### Words of requests and of inner operations -/

/-- The operation a request word selects is a well-formed request. R42, R50. -/
theorem wf_decodeReq (w : Word) : (decodeReq w).wf = true := by
  unfold decodeReq
  split_ifs with h1 h2
  · cases reqDir w <;> rfl
  · cases reqDir w <;> rfl
  · simp [Instr.wf, h1, h2]

theorem isRequest_decodeReq (w : Word) : (decodeReq w).isRequest = true := by
  unfold decodeReq
  split_ifs
  · cases reqDir w <;> rfl
  · cases reqDir w <;> rfl
  · rfl

/-- The encoder puts the fields of a decoded request word back where they stood. R42. -/
theorem encode_decodeReq (w : Word) : encode (decodeReq w) = .req w := by
  conv_rhs => rw [← packReq_fields w]
  unfold decodeReq
  split_ifs with h1 h2
  · rw [h1]; cases reqDir w <;> rfl
  · rw [h2]; cases reqDir w <;> rfl
  · rfl

/-- A request is read back from its fields. R45. -/
theorem decode_encode_request {i : Instr} (hr : i.isRequest = true) (hw : i.wf = true) : decode (encode i) = .ok i := by
  cases i with
  | wrb | rdb => simp [encode, decode, decodeReq]
  | wrbd | rdbd => simp [encode, decode, decodeReq, sizeByte, sizeByteData]
  | unsup size dir addr cmd data =>
    obtain ⟨h1, h2⟩ : size ≠ sizeByte ∧ size ≠ sizeByteData := by simpa [Instr.wf] using hw
    simp [encode, decode, decodeReq, h1, h2]
  | _ => cases hr

/-- Settles O5: `OP` alone selects the operation, and `ARG` is read by SETDATA and SENDBYTE only. -/
theorem microOperationWordsNameTheirOperation : Obligations.MicroOperationWordsNameTheirOperation := by
  intro arg
  simp only [decode, decodePrim, primOp_packPrim, primArg_packPrim]
  exact ⟨rfl, rfl, rfl, rfl, rfl, rfl, rfl, rfl, rfl, rfl, rfl, rfl⟩

/-- An inner operation is read back from its number, SETDATA's bit and SENDBYTE's byte from the argument. R52. -/
theorem decode_encode_inner {i : Instr} (hi : i.isRequest = false) : decode (encode i) = .ok i := by
  cases i with
  | wrb | rdb | wrbd | rdbd | unsup => cases hi
  | setdata b => cases b <;> rfl
  | sendbyte v => simp [encode, decode, decodePrim]
  | _ => rfl

/-- Settles O2: requests are read back from their fields, inner operations from their numbers. -/
theorem decodeOfEncodeGivesBack : Obligations.DecodeOfEncodeGivesBack := by
  intro i hw
  cases h : i.isRequest with
  | true => exact decode_encode_request h hw
  | false => exact decode_encode_inner h

/-- Settles O1: the decoder evaluated on each word. -/
theorem writtenOutWordsDecode : Obligations.WrittenOutWordsDecode :=
  ⟨rfl, rfl, rfl, rfl, rfl, rfl, rfl, rfl, rfl, rfl, rfl⟩

/-- A micro-operation number above 11 names nothing. R53. -/
theorem decode_unassigned {op : BitVec 4} (h : 12 ≤ op.toNat) (arg : Byte) :
    decode (.prim (packPrim op arg)) = .error (.unassignedOp op) := by
  have hop : ∀ o : BitVec 4, 12 ≤ o.toNat → o = 12 ∨ o = 13 ∨ o = 14 ∨ o = 15 := by decide
  obtain rfl | rfl | rfl | rfl := hop op h <;> simp [decode, decodePrim]

/-- Settles O6: the decoder's error is the step's refusal. -/
theorem unassignedMicroOperationIsRefused : Obligations.UnassignedMicroOperationIsRefused := by
  intro op arg h
  have hd := decode_unassigned h arg
  exact ⟨hd, fun s rest hp hin => by simp [step, hp, hin, hd, refusalOf]⟩

/-! ### The fields of a request word -/

theorem getLsbD_reqSize (w : Word) {k : Nat} (hk : k < 8) : (reqSize w).getLsbD k = w.getLsbD (24 + k) := by
  simp [reqSize, hk]

theorem getLsbD_reqAddr (w : Word) {k : Nat} (hk : k < 7) : (reqAddr w).getLsbD k = w.getLsbD (16 + k) := by
  simp [reqAddr, hk]

theorem getLsbD_reqCommand (w : Word) {k : Nat} (hk : k < 8) : (reqCommand w).getLsbD k = w.getLsbD (8 + k) := by
  simp [reqCommand, hk]

theorem getLsbD_reqData (w : Word) {k : Nat} (hk : k < 8) : (reqData w).getLsbD k = w.getLsbD k := by
  simp [reqData, hk]

theorem reqDir_eq_read_iff (w : Word) : reqDir w = .read ↔ w.getLsbD 23 = true := by
  rw [← decide_eq_true_iff (p := reqDir w = .read), reqDir, Dir.ofBit_eq_read]
  simp

/-- Settles O3: the word is its fields packed, so the encoder gives it back. -/
theorem everyRequestWordStandsForItsOperation : Obligations.EveryRequestWordStandsForItsOperation := fun w =>
  ⟨⟨decodeReq w, rfl, wf_decodeReq w, isRequest_decodeReq w, encode_decodeReq w⟩, (packReq_fields w).symm,
    fun _ => getLsbD_reqSize w, reqDir_eq_read_iff w, fun _ => getLsbD_reqAddr w, fun _ => getLsbD_reqCommand w,
    fun _ => getLsbD_reqData w⟩

/-! ### The opcode map -/

/-- A mask on the size and the direction keeps those of the two fields it covers and clears the others. R45. -/
theorem and_mask (w : Word) (m : Byte) (e : Dir) :
    w &&& packReq m e 0 0 0 = packReq (reqSize w &&& m) (if e = .read then reqDir w else .write) 0 0 0 := by
  conv_lhs => rw [← packReq_fields w]
  apply BitVec.eq_of_getLsbD_eq; intro i hi
  simp only [BitVec.getLsbD_and, getLsbD_packReq]
  split_ifs <;> simp_all

theorem packReq_size_dir_inj {z z' : Byte} {d d' : Dir} :
    packReq z d 0 0 0 = packReq z' d' 0 0 0 ↔ z = z' ∧ d = d' := by
  refine ⟨fun h => ⟨?_, ?_⟩, fun ⟨hz, hd⟩ => by rw [hz, hd]⟩
  · simpa using congrArg reqSize h
  · simpa using congrArg reqDir h

/-- The mask of the four supported rows compares the size and the direction. R45. -/
theorem and_sizeDirMask_iff (w : Word) (z : Byte) (d : Dir) :
    w &&& packReq 0xFF .read 0 0 0 = packReq z d 0 0 0 ↔ reqSize w = z ∧ reqDir w = d := by
  have hz : reqSize w &&& 0xFF = reqSize w := BitVec.and_allOnes
  rw [and_mask, packReq_size_dir_inj, hz, if_pos rfl]

/-- The masks of the exact UNSUP rows compare some bits of the size. R45. -/
theorem and_sizeMask_iff (w : Word) (z m : Byte) :
    w &&& packReq m .write 0 0 0 = packReq z .write 0 0 0 ↔ reqSize w &&& m = z := by
  rw [and_mask, packReq_size_dir_inj]
  exact and_iff_left rfl

/-- The four supported rows of the opcode map, by size and direction. R45. -/
theorem and_rowMask_iff (w : Word) :
    (w &&& 0xFF800000 = 0x01000000 ↔ reqSize w = sizeByte ∧ reqDir w = .write) ∧
    (w &&& 0xFF800000 = 0x01800000 ↔ reqSize w = sizeByte ∧ reqDir w = .read) ∧
    (w &&& 0xFF800000 = 0x02000000 ↔ reqSize w = sizeByteData ∧ reqDir w = .write) ∧
    (w &&& 0xFF800000 = 0x02800000 ↔ reqSize w = sizeByteData ∧ reqDir w = .read) :=
  ⟨and_sizeDirMask_iff w sizeByte .write, and_sizeDirMask_iff w sizeByte .read,
    and_sizeDirMask_iff w sizeByteData .write, and_sizeDirMask_iff w sizeByteData .read⟩

/-- The name a request word's row bears, by its size and direction. R45. -/
theorem mnemonic_decodeReq (w : Word) : (decodeReq w).mnemonic =
    if reqSize w = sizeByte then if reqDir w = .write then "WRB" else "RDB"
    else if reqSize w = sizeByteData then if reqDir w = .write then "WRBD" else "RDBD"
    else "UNSUP" := by
  unfold decodeReq
  cases reqDir w <;> split_ifs <;> simp_all [Instr.mnemonic]

theorem firstRow_eq (w : Word) : firstRow w = some (decodeReq w).mnemonic := by
  obtain ⟨h1, h2, h3, h4⟩ := and_rowMask_iff w
  have h5 : sizeByte ≠ sizeByteData := by decide
  rw [mnemonic_decodeReq]
  simp only [firstRow, reqRows, ReqRow.hits, List.find?_cons, beq_eq_decide, h1, h2, h3, h4]
  cases hd : reqDir w <;> split_ifs <;> simp_all

/-- The eight exact UNSUP rows as patterns and masks of the size alone. R45. -/
def unsupSizes : List (Byte × Byte) :=
  [(0x00, 0xFF), (0x03, 0xFF), (0x04, 0xFC), (0x08, 0xF8), (0x10, 0xF0), (0x20, 0xE0), (0x40, 0xC0), (0x80, 0x80)]

theorem unsupRows_eq : unsupRows = unsupSizes.map fun x =>
    ⟨"UNSUP", packReq x.1 .write 0 0 0, packReq x.2 .write 0 0 0⟩ := by decide

/-- Every size but the two supported ones matches one of the eight, and those two none. R45. -/
theorem countP_unsupSizes : ∀ z : Byte,
    unsupSizes.countP (fun x => z &&& x.2 == x.1) = if z = sizeByte ∨ z = sizeByteData then 0 else 1 := by decide

theorem countP_unsupRows (w : Word) :
    unsupRows.countP (·.hits w) = if (decodeReq w).mnemonic = "UNSUP" then 1 else 0 := by
  have hc : unsupRows.countP (·.hits w) = unsupSizes.countP fun x => reqSize w &&& x.2 == x.1 := by
    simp only [unsupRows_eq, List.countP_map, Function.comp_def, ReqRow.hits, beq_eq_decide, and_sizeMask_iff]
  rw [hc, countP_unsupSizes, mnemonic_decodeReq]
  split_ifs <;> simp_all

/-- Settles O4: the masks of the table compare the fields the decoder tests. -/
theorem opcodeMapSelectsBySizeAndDirection : Obligations.OpcodeMapSelectsBySizeAndDirection := by
  intro w
  obtain ⟨h1, h2, h3, h4⟩ := and_rowMask_iff w
  have h5 : sizeByteData ≠ sizeByte := by decide
  rw [h1, h2, h3, h4]
  refine ⟨?_, ?_, ?_, ?_, firstRow_eq w, countP_unsupRows w⟩ <;>
    rintro ⟨hz, hd⟩ <;> simp [decode, decodeReq, hz, hd, h5]

/-! ### Response words and address bytes -/

theorem rsp_statusField (r : Result) : r.rsp.extractLsb' 8 4 = r.code := by
  apply BitVec.eq_of_getLsbD_eq; intro i hi
  simp [getLsbD_rsp, hi, show 8 + i < 12 by omega]

theorem rsp_dataField (r : Result) : r.rsp.extractLsb' 0 8 = r.dataField := by
  apply BitVec.eq_of_getLsbD_eq; intro i hi
  simp [getLsbD_rsp, hi]

theorem rsp_upperBits (r : Result) : r.rsp.extractLsb' 12 20 = 0 := by
  apply BitVec.eq_of_getLsbD_eq; intro i hi
  simp [getLsbD_rsp, show ¬ 12 + i < 8 by omega]

theorem code_le_five (r : Result) : r.code.toNat ≤ 5 := by
  rcases r with b | _ | c
  · exact Nat.zero_le 5
  · exact Nat.zero_le 5
  · cases c <;> decide

theorem code_eq_zero_iff (r : Result) : r.code = 0 ↔ r = .okWrite ∨ ∃ b, r = .okRead b := by
  rcases r with b | _ | c
  · simp [Result.code]
  · simp [Result.code]
  · cases c <;> simp [Result.code, FailCode.code]

theorem rsp_okRead (b : Byte) : (Result.okRead b).rsp = b.setWidth 32 := by
  apply BitVec.eq_of_getLsbD_eq; intro i hi
  rw [getLsbD_rsp, BitVec.getLsbD_setWidth]
  by_cases h8 : i < 8
  · simp [Result.dataField, h8, hi]
  · simp [Result.code, h8, BitVec.getLsbD_of_ge b i (by omega)]

/-- Settles O8: the three fields of the word, and the code of each kind of result. -/
theorem responseWordCarriesStatusAndByte : Obligations.ResponseWordCarriesStatusAndByte :=
  ⟨fun r => ⟨rsp_upperBits r, rsp_statusField r, rsp_dataField r, code_le_five r, code_eq_zero_iff r⟩,
    rsp_okRead, rfl, rfl, rfl, rfl, rfl, rfl⟩

theorem getLsbD_addressByte_succ (a : SlaveAddr) (d : Dir) {k : Nat} (hk : k < 7) :
    (addressByte a d).getLsbD (k + 1) = a.getLsbD k := by
  simp only [addressByte, BitVec.getLsbD_or, BitVec.getLsbD_shiftLeft, BitVec.getLsbD_setWidth, Dir.getLsbD_bit]
  simp [hk, show k + 1 < 8 by omega, show k < 8 by omega]

theorem getLsbD_addressByte_zero (a : SlaveAddr) (d : Dir) : (addressByte a d).getLsbD 0 = true ↔ d = .read := by
  simp only [addressByte, BitVec.getLsbD_or, BitVec.getLsbD_shiftLeft, BitVec.getLsbD_setWidth, Dir.getLsbD_bit]
  simp

/-- Settles O7: the shift by one leaves bit 0 to the direction. -/
theorem addressByteIsAddressThenDirection : Obligations.AddressByteIsAddressThenDirection :=
  ⟨fun a d => ⟨fun _ => getLsbD_addressByte_succ a d, getLsbD_addressByte_zero a d⟩, rfl, rfl⟩

/-! ### The assembler -/

/-- The bits of a field moved up to bit `p` of a word. -/
theorem getLsbD_setWidth_shiftLeft {n : Nat} (x : BitVec n) (p : Nat) {i : Nat} (hi : i < 32) :
    (x.setWidth 32 <<< p).getLsbD i = (decide (p ≤ i) && x.getLsbD (i - p)) := by
  have hp : decide (i < p) = !decide (p ≤ i) := by simp only [← Nat.not_le, decide_not]
  simp [hi, hp]

/-- A request word is the word of its size and direction with the other fields ORed into their places. R42. -/
theorem packReq_eq_or (z : Byte) (d : Dir) (a : SlaveAddr) (c v : Byte) : packReq z d a c v =
    packReq z d 0 0 0 ||| a.setWidth 32 <<< 16 ||| c.setWidth 32 <<< 8 ||| v.setWidth 32 := by
  apply BitVec.eq_of_getLsbD_eq; intro i hi
  have ha : 23 ≤ i → a.getLsbD (i - 16) = false := fun h => BitVec.getLsbD_of_ge _ _ (by omega)
  have hc : 16 ≤ i → c.getLsbD (i - 8) = false := fun h => BitVec.getLsbD_of_ge _ _ (by omega)
  have hv : 8 ≤ i → v.getLsbD i = false := fun h => BitVec.getLsbD_of_ge _ _ h
  simp only [BitVec.getLsbD_or, getLsbD_setWidth_shiftLeft _ _ hi, BitVec.getLsbD_setWidth, getLsbD_packReq,
    BitVec.ofNat_eq_ofNat, BitVec.getLsbD_zero]
  grind

theorem assemble_wrb (a : SlaveAddr) (c : Byte) : assemble (.wrb a c) = packReq sizeByte .write a c 0 := by
  rw [packReq_eq_or]
  exact BitVec.or_zero.symm

theorem assemble_rdb (a : SlaveAddr) : assemble (.rdb a) = packReq sizeByte .read a 0 0 := by
  rw [packReq_eq_or]
  exact (BitVec.or_zero.trans BitVec.or_zero).symm

theorem assemble_wrbd (a : SlaveAddr) (c v : Byte) : assemble (.wrbd a c v) = packReq sizeByteData .write a c v := by
  rw [packReq_eq_or]
  rfl

theorem assemble_rdbd (a : SlaveAddr) : assemble (.rdbd a) = packReq sizeByteData .read a 0 0 := by
  rw [packReq_eq_or]
  exact (BitVec.or_zero.trans BitVec.or_zero).symm

/-- Settles O9: a line is the encoding of the operation it means. -/
theorem assembledLinesDecode : Obligations.AssembledLinesDecode := by
  refine ⟨fun a c => ?_, fun a => ?_, fun a c d => ?_, fun a => ?_, fun w => rfl, rfl⟩
  · rw [assemble_wrb]; exact decode_encode_request (i := .wrb a c 0) rfl rfl
  · rw [assemble_rdb]; exact decode_encode_request (i := .rdb a 0 0) rfl rfl
  · rw [assemble_wrbd]; exact decode_encode_request (i := .wrbd a c d) rfl rfl
  · rw [assemble_rdbd]; exact decode_encode_request (i := .rdbd a 0 0) rfl rfl

end Sys2Proof.Machine

/-! SUPPORT. What a transaction does not look at: the operations of the engine read no latch, and `access` reads only the
latches of the fields its request uses (spec/30_encoding.md R46, spec/42_smbus_adapter.md R79 to R88), so a change of the
other latches before it is the same change after it. -/

namespace Sys2Proof.Machine

/-- The five latches of a request. R13. -/
structure Latches where
  size : Byte
  dir : Dir
  addr : SlaveAddr
  cmd : Byte
  data : Byte

def State.latches (s : State) : Latches := ⟨s.tSize, s.tDir, s.tAddr, s.tCmd, s.tData⟩

/-- The state with its latches changed by `f` and everything else as it was. -/
def State.relatch (f : Latches → Latches) (s : State) : State :=
  { s with
    tSize := (f s.latches).size
    tDir := (f s.latches).dir
    tAddr := (f s.latches).addr
    tCmd := (f s.latches).cmd
    tData := (f s.latches).data }

/-- The change `f` keeps the fields that the request in the latches `l` uses: whether the size is supported, for a
supported size the direction and the address, for a write the size and the command, for a write of BYTE_DATA the data.
R46. -/
structure KeepsUsed (f : Latches → Latches) (l : Latches) : Prop where
  supported : sizeUnsupported (f l).size = sizeUnsupported l.size
  addressed : sizeUnsupported l.size = false → (f l).dir = l.dir ∧ (f l).addr = l.addr
  written : sizeUnsupported l.size = false → l.dir = .write → (f l).size = l.size ∧ (f l).cmd = l.cmd
  data : l.size = sizeByteData → l.dir = .write → (f l).data = l.data

/-- Whatever the change, an unsupported size uses no other field. R46. -/
theorem KeepsUsed.of_unsupported {f : Latches → Latches} {l : Latches} (h : sizeUnsupported l.size = true)
    (hf : sizeUnsupported (f l).size = true) : KeepsUsed f l where
  supported := hf.trans h.symm
  addressed h' := absurd (h.symm.trans h') nofun
  written h' := absurd (h.symm.trans h') nofun
  data h' := by
    rw [h'] at h
    exact absurd h (by decide)

/-- A read uses neither the command nor the data. R46, R86. -/
theorem KeepsUsed.of_read {f : Latches → Latches} {l : Latches} (h : l.dir = .read) (hf : (f l).dir = .read)
    (hsize : sizeUnsupported (f l).size = sizeUnsupported l.size) (haddr : (f l).addr = l.addr) : KeepsUsed f l where
  supported := hsize
  addressed _ := ⟨hf.trans h.symm, haddr⟩
  written _ h' := absurd (h.symm.trans h') nofun
  data _ h' := absurd (h.symm.trans h') nofun

variable (f : Latches → Latches) (s : State)

/-! ### The engine's operations keep the latches and do not read them -/

theorem start_relatch : start (s.relatch f) = (start s).relatch f := by rw [start_eq, start_eq]; rfl

theorem stop_relatch : stop (s.relatch f) = (stop s).relatch f := by rw [stop_eq, stop_eq]; rfl

theorem ackCheck_relatch : ackCheck (s.relatch f) = ((ackCheck s).1, (ackCheck s).2.relatch f) := by
  rw [ackCheck_eq, ackCheck_eq]; rfl

theorem sendByte_relatch (v : Byte) : sendByte v (s.relatch f) = ((sendByte v s).1, (sendByte v s).2.relatch f) := by
  rw [sendByte_eq, sendByte_eq]; rfl

theorem receiveBits_relatch (n : Nat) : receiveBits n (s.relatch f) = (receiveBits n s).relatch f := by
  induction n generalizing s with
  | zero => rfl
  | succ n ih => exact ih (receiveBit (Fin.ofNat 8 n) s)

theorem readByte_relatch : readByte (s.relatch f) = ((readByte s).1, (readByte s).2.relatch f) := by
  have h : ackCheck (receiveBits 8 { commit (clockOff (s.relatch f)) with rxAcc := 0 }) = _ :=
    (congrArg ackCheck (receiveBits_relatch f { commit (clockOff s) with rxAcc := 0 } 8)).trans (ackCheck_relatch f _)
  rw [readByte, h]
  rfl

theorem busBusy_relatch : busBusy (s.relatch f) = ((busBusy s).1, (busBusy s).2.relatch f) := rfl

theorem busBusy_latches : (busBusy s).2.latches = s.latches := rfl

theorem start_latches : (start s).latches = s.latches := rfl

theorem sendByte_latches (v : Byte) : (sendByte v s).2.latches = s.latches := by rw [sendByte_eq]; rfl

/-! ### The paths of `access` -/

theorem stopAndFail_relatch (c : FailCode) : stopAndFail c (s.relatch f) = (stopAndFail c s).relatch f := by
  rw [stopAndFail, stop_relatch]; rfl

theorem finish_stop_relatch (r : Result) : finish r (stop (s.relatch f)) = (finish r (stop s)).relatch f := by
  rw [stop_relatch]; rfl

theorem readPath_relatch : readPath (s.relatch f) = (readPath s).relatch f := by
  unfold readPath
  rw [readByte_relatch]
  dsimp only
  rw [stop_relatch, apply_ite (State.relatch f)]
  rfl

variable {f s}

/-- The write path reads the command, and the data for BYTE_DATA only. R87, R88. -/
theorem writePath_relatch (hk : KeepsUsed f s.latches) (hs : sizeUnsupported s.tSize = false) (hw : s.tDir = .write) :
    writePath (s.relatch f) = (writePath s).relatch f := by
  have hc : (s.relatch f).tCmd = s.tCmd := (hk.written hs hw).2
  have hl := sendByte_latches s s.tCmd
  dsimp only [writePath]
  rw [hc, sendByte_relatch]
  dsimp only
  generalize (sendByte s.tCmd s).2 = u at hl ⊢
  rw [← hl] at hk
  have hs : sizeUnsupported u.tSize = false := (congrArg (sizeUnsupported ·.size) hl).trans hs
  have hw : u.tDir = .write := (congrArg Latches.dir hl).trans hw
  have hz : (u.relatch f).tSize = u.tSize := (hk.written hs hw).1
  rw [hz, apply_ite (State.relatch f), apply_ite (State.relatch f)]
  refine ite_congr rfl (fun _ => stopAndFail_relatch ..) fun _ =>
    ite_congr rfl (fun h => ?_) fun _ => finish_stop_relatch ..
  have hd : (u.relatch f).tData = u.tData := hk.data h hw
  rw [hd, sendByte_relatch, apply_ite (State.relatch f)]
  exact ite_congr rfl (fun _ => stopAndFail_relatch ..) fun _ => finish_stop_relatch ..

/-- START and the sending of the address byte read no latch. R83, R84. -/
theorem address_relatch {t : State} (ht : t = s.relatch f) (b : Byte) :
    sendByte b (start { t with aByte := b }) =
      ((sendByte b (start { s with aByte := b })).1, (sendByte b (start { s with aByte := b })).2.relatch f) := by
  subst ht
  exact (congrArg (sendByte b) (start_relatch f { s with aByte := b })).trans (sendByte_relatch ..)

/-- Steps 3 to 7 read the address and the direction, and what the path chosen reads. R83, R85. -/
theorem transact_relatch (hk : KeepsUsed f s.latches) (hs : sizeUnsupported s.tSize = false) :
    transact (s.relatch f) = (transact s).relatch f := by
  have hb : addressByte (s.relatch f).tAddr (s.relatch f).tDir = addressByte s.tAddr s.tDir :=
    congrArg₂ addressByte (hk.addressed hs).2 (hk.addressed hs).1
  dsimp only [transact]
  rw [hb, address_relatch rfl]
  have hl : (sendByte (addressByte s.tAddr s.tDir) (start { s with aByte := addressByte s.tAddr s.tDir })).2.latches =
    s.latches := sendByte_latches ..
  generalize (sendByte _ (start { s with aByte := addressByte s.tAddr s.tDir })).2 = u at hl ⊢
  rw [← hl] at hk
  have hs : sizeUnsupported u.tSize = false := (congrArg (sizeUnsupported ·.size) hl).trans hs
  have hd : (u.relatch f).tDir = u.tDir := (hk.addressed hs).1
  rw [hd, apply_ite (State.relatch f)]
  refine ite_congr rfl (fun _ => stopAndFail_relatch ..) fun _ => ?_
  cases h : u.tDir with
  | read => exact readPath_relatch f u
  | write => exact writePath_relatch hk hs h

/-- `access` reads no latch of a field its request does not use. R46. -/
theorem access_relatch (hk : KeepsUsed f s.latches) : access (s.relatch f) = (access s).relatch f := by
  have hz : sizeUnsupported ((busBusy s).2.relatch f).tSize = sizeUnsupported (busBusy s).2.tSize := hk.supported
  dsimp only [access]
  rw [busBusy_relatch]
  dsimp only
  rw [hz, apply_ite (State.relatch f), apply_ite (State.relatch f)]
  exact ite_congr rfl (fun _ => rfl) fun _ => ite_congr rfl (fun _ => rfl) fun hs =>
    transact_relatch hk (Bool.eq_false_of_not_eq_true hs)

/-- Two requests that differ in fields they do not use end in states that differ in the latches of those fields. R46. -/
theorem request_relatch (hp : s.phase = .idle) (l : Latches) (hk : KeepsUsed f l) :
    ∃ t, request l.size l.dir l.addr l.cmd l.data s = .next t ∧
      request (f l).size (f l).dir (f l).addr (f l).cmd (f l).data s = .next (t.relatch f) := by
  refine ⟨_, request_idle s hp .., (request_idle s hp ..).trans ?_⟩
  exact congrArg _ (access_relatch (s := accept l.size l.dir l.addr l.cmd l.data s) hk)

/-- Settles O38: the changed latches are those of fields the request does not use. -/
theorem ignoredFieldsChangeNothing : Obligations.IgnoredFieldsChangeNothing := by
  intro s addr addr' cmd cmd' data data' hp
  refine ⟨?_, ?_, ?_, fun size dir dir' h1 h2 => ?_⟩
  · exact request_relatch (f := fun l => { l with data := data' }) hp ⟨sizeByte, .write, addr, cmd, data⟩
      ⟨rfl, fun _ => ⟨rfl, rfl⟩, fun _ _ => ⟨rfl, rfl⟩, fun h => nomatch h⟩
  · exact request_relatch (f := fun l => { l with cmd := cmd', data := data' }) hp ⟨sizeByte, .read, addr, cmd, data⟩
      (.of_read rfl rfl rfl rfl)
  · exact request_relatch (f := fun l => { l with cmd := cmd', data := data' }) hp
      ⟨sizeByteData, .read, addr, cmd, data⟩ (.of_read rfl rfl rfl rfl)
  · have hu : sizeUnsupported size = true := by simp [sizeUnsupported, h1, h2]
    exact request_relatch (f := fun l => { l with dir := dir', addr := addr', cmd := cmd', data := data' }) hp
      ⟨size, dir, addr, cmd, data⟩ (.of_unsupported hu hu)

end Sys2Proof.Machine

/-! SUPPORT. The Line State Controller's operations in full (spec/40_line_state_controller.md R58 to R63): setting a line
bit twice, or both in either order, the next state each operation answers, and what one COMMIT costs. -/

namespace Sys2Proof

variable (p : Params) (w : Word)

@[simp] theorem Params.setSdo_setSdo (b b' : Bool) : p.setSdo (p.setSdo w b) b' = p.setSdo w b' := by
  simp [p.setSdo_eq_withLines]

@[simp] theorem Params.setClk_setClk (c c' : Bool) : p.setClk (p.setClk w c) c' = p.setClk w c' := by
  simp [p.setClk_eq_withLines]

/-- The two line bits are set in either order with the same outcome. R63 (b). -/
theorem Params.setSdo_setClk (b c : Bool) : p.setSdo (p.setClk w c) b = p.setClk (p.setSdo w b) c := by
  rw [p.setClk_eq_withLines w, p.setSdo_withLines, Params.withLines]

end Sys2Proof

namespace Sys2Proof.Machine

/-! ### The shadow operations -/

/-- An operation that maps the shadow, by a map that is the same done twice, changes nothing else; a second one changes
nothing. R58, R59, R60. -/
theorem exec_shadowMap {i : Instr} {f : Params → Word → Word}
    (hexec : ∀ u, exec i u = .next (returnWith .none { u with shadow := f u.cfg u.shadow }))
    (hf : ∀ p w, f p (f p w) = f p w) (s : State) :
    ∃ t, exec i s = .next t ∧ t = { s with shadow := f s.cfg s.shadow, ret := t.ret } ∧ exec i t = .next t := by
  refine ⟨_, hexec s, rfl, ?_⟩
  rw [hexec]
  simp [returnWith, hf]

/-- Settles O16: SETDATA is the map that sets the data bit. -/
theorem setdataChangesOnlyTheDataBit : Obligations.SetdataChangesOnlyTheDataBit := by
  intro s b
  obtain ⟨t, hnext, hframe, hagain⟩ :=
    exec_shadowMap (i := .setdata b) (f := fun p w => p.setSdo w b) (fun _ => rfl) (fun p w => p.setSdo_setSdo w b b) s
  refine ⟨t, s.cfg.setSdo s.shadow b, hnext, hframe, rfl, s.cfg.getLsbD_setSdo s.shadow b, hagain, ?_⟩
  rintro arg rfl
  exact (microOperationWordsNameTheirOperation arg).1

/-- Settles O17: CLOCKON is the map that sets the clock bit to 1. -/
theorem clockonSetsOnlyTheClockBit : Obligations.ClockonSetsOnlyTheClockBit := by
  intro s
  obtain ⟨t, hnext, hframe, hagain⟩ :=
    exec_shadowMap (i := .clockon) (f := fun p w => p.setClk w true) (fun _ => rfl)
      (fun p w => p.setClk_setClk w true true) s
  refine ⟨t, s.cfg.setClk s.shadow true, hnext, hframe, rfl, s.cfg.getLsbD_setClk s.shadow true, hagain, ?_⟩
  intro arg
  obtain ⟨_, hdecode, _⟩ := microOperationWordsNameTheirOperation arg
  exact hdecode

/-- Settles O18: CLOCKOFF is the map that sets the clock bit to 0. -/
theorem clockoffClearsOnlyTheClockBit : Obligations.ClockoffClearsOnlyTheClockBit := by
  intro s
  obtain ⟨t, hnext, hframe, hagain⟩ :=
    exec_shadowMap (i := .clockoff) (f := fun p w => p.setClk w false) (fun _ => rfl)
      (fun p w => p.setClk_setClk w false false) s
  refine ⟨t, s.cfg.setClk s.shadow false, hnext, hframe, rfl, s.cfg.getLsbD_setClk s.shadow false, hagain, ?_⟩
  intro arg
  obtain ⟨_, _, hdecode, _⟩ := microOperationWordsNameTheirOperation arg
  exact hdecode

/-- Settles O21: the laws of the two line bits, applied to the shadow. -/
theorem shadowOperationsCommuteAndOverride : Obligations.ShadowOperationsCommuteAndOverride := by
  intro s b b'
  simp only [setData, clockOn, clockOff, Params.setSdo_setClk, Params.setSdo_setSdo, Params.setClk_setClk, and_self]

/-! ### COMMIT and READDATALINE -/

/-- Writing one word to the control register costs one settle interval. R61, R127. -/
theorem leastDurationUs_write (p : Params) (v : Word) :
    leastDurationUs p [.write p.ctrlOffset v] = p.settleUs := by
  simp [leastDurationUs, numWrites]

/-- Settles O19: each COMMIT adds the same write, the second as the first. -/
theorem commitWritesTheWholeShadow : Obligations.CommitWritesTheWholeShadow := by
  intro s arg
  obtain ⟨_, _, _, hdecode, _⟩ := microOperationWordsNameTheirOperation arg
  exact ⟨returnWith .none (commit s), returnWith .none (commit (returnWith .none (commit s))), rfl, rfl, rfl, rfl,
    leastDurationUs_write s.cfg s.shadow, hdecode⟩

/-- Settles O20: the next state is `readDataLine_eq`'s, and the sample is drawn as the environment rule says. -/
theorem readdatalineReleasesCommitsAndSamples : Obligations.ReaddatalineReleasesCommitsAndSamples := by
  intro s arg
  obtain ⟨_, _, _, _, hdecode, _⟩ := microOperationWordsNameTheirOperation arg
  obtain ⟨hscripted, -⟩ := drawn_answer s.env (s.trace ++ [s.cfg.wr s.shadow s.clk true])
  refine ⟨s.cfg.withLines s.shadow s.clk true, sampleAnswer s, (s.cfg.setSdo_eq_withLines s.shadow true).symm, ?_,
    hscripted, ?_, ?_, hdecode⟩
  · show Host.Outcome.next (returnWith (.bit (readDataLine s).1) (readDataLine s).2) = _
    rw [readDataLine_eq, Params.sdi_eq_getLsbD]
    rfl
  · intro hnone
    rw [sampleAnswer, hnone, answer_nil]
    rfl
  · rw [← Params.sdi_eq_getLsbD]
    exact bne_iff_ne

end Sys2Proof.Machine

/-! SUPPORT. The Protocol Engine's seven operations as `exec` takes them (spec/41_protocol_engine.md R66 to R76): the next
state of each in one equation, with the answers it draws as witnesses; the statements read that equation, and the table of
R76 counts its trace. -/

namespace Sys2Proof.Machine

variable (s : State)

/-! ### The next states -/

theorem exec_start_eq : exec .start s =
    .next (returnWith .none (s.settled true false (startTrace s.cfg s.shadow s.clk s.sdo))) := by
  rw [← start_eq]; rfl

theorem exec_stop_eq : exec .stop s =
    .next (returnWith .none (s.settled true true (stopTrace s.cfg s.shadow s.clk))) := by
  rw [← stop_eq]; rfl

/-- An operation that answers a bit answers it through the pair its meaning returns. R52. -/
theorem next_returnBit {r : Bool × State} {b : Bool} {t : State} (h : r = (b, t)) :
    (.next (returnWith (.bit r.1) r.2) : Host.Outcome State Fault Refusal) = .next (returnWith (.bit b) t) := by
  rw [h]

theorem exec_readbit_spec : ∃ w, Drawn s.env s.env.tail [w] ∧
    exec .readbit s = .next (returnWith (.bit (s.cfg.sdi w)) (s.checked w)) :=
  ⟨sampleAnswer s, drawn_answer .., next_returnBit (readDataLine_eq s)⟩

theorem exec_busbusy_spec : ∃ w, Drawn s.env s.env.tail [w] ∧
    exec .busbusy s = .next (returnWith (.bit (!s.cfg.sdi w)) (s.checked w)) :=
  have ⟨w, hw, e⟩ := busBusy_spec s
  ⟨w, hw, next_returnBit e⟩

/-- The state after an ACKCHECK that drew `w`. R70. -/
def State.acknowledged (s : State) (w : Word) : State :=
  { s.settled false true (ackTrace s.cfg s.shadow w) with
    env := s.env.tail, ackF := s.cfg.sdi w == s.cfg.ackSample }

theorem exec_ackcheck_spec : ∃ w, Drawn s.env s.env.tail [w] ∧
    exec .ackcheck s = .next (returnWith (.bit (s.cfg.sdi w == s.cfg.ackSample)) (s.acknowledged w)) :=
  ⟨ackAnswer s, drawn_answer .., next_returnBit (ackCheck_eq s)⟩

theorem exec_sendbyte_spec (v : Byte) : ∃ w, Drawn s.env s.env.tail [w] ∧
    exec (.sendbyte v) s = .next (returnWith (.bit (s.cfg.sdi w == s.cfg.ackSample)) (s.sent v w)) :=
  have ⟨w, hw, e⟩ := sendByte_spec s v
  ⟨w, hw, next_returnBit e⟩

/-- The state after a READBYTE that made the draws `r`, with `env` left of the script. R73. -/
def State.received (s : State) (r : RxDraws) (env : List Word) : State :=
  { s.settled false true (readTrace s.cfg s.shadow s.sdo r) with
    env := env, bitIdx := 0, rxAcc := r.byte s.cfg, ackF := s.cfg.sdi r.ack == s.cfg.ackSample
    rdFail := s.cfg.sdi r.ack != s.cfg.ackSample }

theorem exec_readbyte_spec : ∃ r env, Drawn s.env env r.list ∧
    exec .readbyte s =
      .next (returnWith (.byte (s.cfg.sdi r.ack != s.cfg.ackSample) (r.byte s.cfg)) (s.received r env)) := by
  obtain ⟨r, env, hr, e⟩ := readByte_spec s
  refine ⟨r, env, hr, ?_⟩
  show Host.Outcome.next (returnWith (.byte (readByte s).1.1 (readByte s).1.2) (readByte s).2) = _
  rw [e]; rfl

/-! ### START and STOP -/

/-- START is START-shaped when it is entered with both lines high, and otherwise not. R67. -/
theorem countShape_startTrace (p : Params) (base : Word) (c d : Bool) :
    countShape startShaped (wireTrace p (startTrace p base c d)) = if c = true ∧ d = true then 1 else 0 := by
  rw [wireTrace, lines_start]
  cases c <;> cases d <;> rfl

/-- STOP is STOP-shaped once: its second and third writes are W10 W11, and its last two leave the data high. R68. -/
theorem countShape_stopTrace (p : Params) (base : Word) (c : Bool) :
    countShape stopShaped (wireTrace p (stopTrace p base c)) = 1 := by
  rw [wireTrace, lines_stop]
  cases c <;> rfl

/-- Settles O22: the next state is `exec_start_eq`'s. -/
theorem startFollowsItsSequence : Obligations.StartFollowsItsSequence := by
  intro s arg
  obtain ⟨_, _, _, _, _, hdecode, _⟩ := microOperationWordsNameTheirOperation arg
  exact ⟨_, exec_start_eq s, rfl, countShape_startTrace .., hdecode⟩

/-- Settles O23: the second STOP finds the lines at (1, 1) and the 30 other bits the first one found. -/
theorem stopFollowsItsSequenceAndConverges : Obligations.StopFollowsItsSequenceAndConverges := by
  intro s arg
  obtain ⟨_, _, _, _, _, _, hdecode, _⟩ := microOperationWordsNameTheirOperation arg
  refine ⟨_, _, exec_stop_eq s, rfl, countShape_stopTrace .., exec_stop_eq _, ?_, ?_, ?_, hdecode⟩
  · simp [State.settled]
  · simp [State.settled, startShaped]
  · simp [State.settled, stopTrace, State.clk]

/-! ### The samples -/

/-- Settles O24: both names stand for one function. -/
theorem readbitIsReaddataline : Obligations.ReadbitIsReaddataline := by
  intro s arg
  obtain ⟨_, _, _, _, _, _, _, hdecode, _⟩ := microOperationWordsNameTheirOperation arg
  obtain ⟨w, hw, e⟩ := exec_readbit_spec s
  exact ⟨rfl, hdecode, _, w, hw, e, rfl⟩

/-- Settles O25: the next state is `State.acknowledged`. -/
theorem ackcheckSamplesOnceAgainstAckSample : Obligations.AckcheckSamplesOnceAgainstAckSample := by
  intro s arg
  obtain ⟨_, _, _, _, _, _, _, _, hdecode, _⟩ := microOperationWordsNameTheirOperation arg
  obtain ⟨w, hw, e⟩ := exec_ackcheck_spec s
  exact ⟨w, hw, e, hdecode⟩

/-- Settles O28: busy is the negation of the sample, and `ACK_SAMPLE` does not occur. -/
theorem busbusyReportsALowLine : Obligations.BusbusyReportsALowLine := by
  intro s arg
  obtain ⟨_, _, _, _, _, _, _, _, _, _, _, hdecode⟩ := microOperationWordsNameTheirOperation arg
  obtain ⟨w, hw, e⟩ := exec_busbusy_spec s
  refine ⟨w, hw, ?_, hdecode⟩
  rw [e, ← beq_false]; rfl

/-! ### The bytes -/

/-- After the first group of SENDBYTE the clock is low, so the other seven groups differ in their bit only. R72. -/
theorem append_sendTrace (tr : List Event) (p : Params) (base : Word) (c : Bool) (v : Byte) (w : Word) :
    tr ++ sendTrace p base c v w = tr ++ bitTrace p base c (v.getLsbD 7) ++
      [6, 5, 4, 3, 2, 1, 0].flatMap (fun k => bitTrace p base false (v.getLsbD k)) ++ ackTrace p base w := by
  simp [sendTrace, sendBitsTrace]

/-- Settles O26: the next state is `State.sent`. -/
theorem sendbyteSendsEightBitsThenOneAckcheck : Obligations.SendbyteSendsEightBitsThenOneAckcheck := by
  intro s v
  obtain ⟨_, _, _, _, _, _, _, _, _, hdecode, _⟩ := microOperationWordsNameTheirOperation v
  obtain ⟨w, hw, e⟩ := exec_sendbyte_spec s v
  refine ⟨_, w, hw, e, ?_, hdecode⟩
  rw [← append_sendTrace]; rfl

/-- Bit `k` of READBYTE's byte is the sample drawn as number `7 - k`. R73. -/
theorem RxDraws.getLsbD_byte (p : Params) (r : RxDraws) (k : Fin 8) :
    (r.byte p).getLsbD k = p.sdi (r.list.getD (7 - k) 0) := by
  rw [RxDraws.byte, BitVec.getLsbD_ofBoolListBE]
  fin_cases k <;> rfl

/-- Settles O27: the next state is `State.received`, whose byte has the first sample as its bit 7. -/
theorem readbyteSamplesEightBitsThenOneAckcheck : Obligations.ReadbyteSamplesEightBitsThenOneAckcheck := by
  intro s arg
  obtain ⟨_, _, _, _, _, _, _, _, _, _, hdecode, _⟩ := microOperationWordsNameTheirOperation arg
  obtain ⟨r, env, hr, e⟩ := exec_readbyte_spec s
  have hbit := r.getLsbD_byte s.cfg
  exact ⟨_, r, env, r.byte s.cfg, hr, hbit 7, hbit 6, hbit 5, hbit 4, hbit 3, hbit 2, hbit 1, hbit 0, e, rfl, hdecode⟩

/-! ### The table of R76 -/

/-- The row of the table of R76, with R127's duration, that operation `i` keeps to from the state `s`. -/
def KeepsRow (s : State) (i : Instr) (writes reads : Nat) (c d : Bool) : Prop :=
  ∃ t tr, exec i s = .next t ∧ t.trace = s.trace ++ tr ∧ numWrites s.cfg tr = writes ∧ numReads s.cfg tr = reads ∧
    leastDurationUs s.cfg tr = writes * s.cfg.settleUs ∧ t.clk = c ∧ t.sdo = d ∧ t.ctrlReg = t.shadow

/-- An operation that ends with a write or a sample of the lines (`c`, `d`), after the trace `tr`, keeps to the row of
the counts of `tr`. -/
theorem KeepsRow.of_next {s t : State} {i : Instr} {writes reads : Nat} {c d : Bool} {tr : List Event}
    (hnext : exec i s = .next t) (hcfg : t.cfg = s.cfg) (hshadow : t.shadow = s.cfg.withLines s.shadow c d)
    (hctrl : t.ctrlReg = t.shadow) (htrace : t.trace = s.trace ++ tr) (hwrites : numWrites s.cfg tr = writes)
    (hreads : numReads s.cfg tr = reads) : KeepsRow s i writes reads c d := by
  refine ⟨t, tr, hnext, htrace, hwrites, hreads, by rw [leastDurationUs, hwrites], ?_, ?_, hctrl⟩
  · simp [State.clk, hcfg, hshadow]
  · simp [State.sdo, hcfg, hshadow]

theorem start_keepsRow : KeepsRow s .start 4 0 true false :=
  .of_next (exec_start_eq s) rfl rfl rfl rfl (numWrites_start ..) (numReads_start ..)

theorem stop_keepsRow : KeepsRow s .stop 5 0 true true :=
  .of_next (exec_stop_eq s) rfl rfl rfl rfl (numWrites_stop ..) (numReads_stop ..)

theorem readbit_keepsRow : KeepsRow s .readbit 1 1 s.clk true := by
  obtain ⟨w, -, e⟩ := exec_readbit_spec s
  exact .of_next e rfl rfl rfl rfl (numWrites_sample ..) (numReads_sample ..)

theorem busbusy_keepsRow : KeepsRow s .busbusy 1 1 s.clk true := by
  obtain ⟨w, -, e⟩ := exec_busbusy_spec s
  exact .of_next e rfl rfl rfl rfl (numWrites_sample ..) (numReads_sample ..)

theorem ackcheck_keepsRow : KeepsRow s .ackcheck 3 1 false true := by
  obtain ⟨w, -, e⟩ := exec_ackcheck_spec s
  exact .of_next e rfl rfl rfl rfl (numWrites_ack ..) (numReads_ack ..)

theorem sendbyte_keepsRow (v : Byte) : KeepsRow s (.sendbyte v) 27 1 false true := by
  obtain ⟨w, -, e⟩ := exec_sendbyte_spec s v
  exact .of_next e rfl rfl rfl rfl (numWrites_send ..) (numReads_send ..)

theorem readbyte_keepsRow : KeepsRow s .readbyte 28 9 false true := by
  obtain ⟨r, env, -, e⟩ := exec_readbyte_spec s
  exact .of_next e rfl rfl rfl rfl (numWrites_read ..) (numReads_read ..)

/-- Settles O29: row by row. -/
theorem engineOperationsCountAndExit : Obligations.EngineOperationsCountAndExit := by
  rintro s i writes reads c d (h | ⟨v, rfl, rfl, rfl, rfl, rfl⟩)
  · simp only [List.mem_cons, List.not_mem_nil, or_false, Prod.mk.injEq] at h
    obtain ⟨rfl, rfl, rfl, rfl, rfl⟩ | ⟨rfl, rfl, rfl, rfl, rfl⟩ | ⟨rfl, rfl, rfl, rfl, rfl⟩ |
      ⟨rfl, rfl, rfl, rfl, rfl⟩ | ⟨rfl, rfl, rfl, rfl, rfl⟩ | ⟨rfl, rfl, rfl, rfl, rfl⟩ := h
    · exact start_keepsRow s
    · exact stop_keepsRow s
    · exact readbit_keepsRow s
    · exact ackcheck_keepsRow s
    · exact readbyte_keepsRow s
    · exact busbusy_keepsRow s
  · exact sendbyte_keepsRow s v

/-! ### One step in order -/

/-- Settles O53: an event of each phase hands the lines on as its sequence says, and a request is a run of such events. -/
theorem everyStepStaysInOrder : Obligations.EveryStepStaysInOrder := fun _ => step_inOrder

end Sys2Proof.Machine

/-! SUPPORT. How an `access` can end, said once (spec/42_smbus_adapter.md R79 to R95): each of its paths with the answers
drawn, the trace added, the result and what the engine's latches and flags hold. The adapter's statements are read off
it. -/

namespace Sys2Proof.Machine

variable {s u v t : State} {c c' : Bool} {tr tr' : List Event} {ws ws' : List Word} {w : Word}

/-! ### The points of a transaction between two operations of the engine -/

/-- From `s` the block came to `u` with the lines at (`c`, 1) committed, the trace `tr` added and the answers `ws` drawn;
the latches and what no request changes are as they were. -/
structure Reached (s u : State) (c : Bool) (tr : List Event) (ws : List Word) : Prop where
  leaves : RequestLeaves s u
  latches : u.latches = s.latches
  shadow : u.shadow = s.cfg.withLines s.shadow c true
  ctrlReg : u.ctrlReg = u.shadow
  trace : u.trace = s.trace ++ tr
  drawn : Drawn s.env u.env ws

theorem Reached.cfg (h : Reached s u c tr ws) : u.cfg = s.cfg := h.leaves.1

theorem Reached.clk (h : Reached s u c tr ws) : u.clk = c := by simp [State.clk, h.cfg, h.shadow]

theorem Reached.sdo (h : Reached s u c tr ws) : u.sdo = true := by simp [State.sdo, h.cfg, h.shadow]

theorem Reached.trans (h : Reached s u c tr ws) (h' : Reached u v c' tr' ws') :
    Reached s v c' (tr ++ tr') (ws ++ ws') where
  leaves :=
    have ⟨hcfg, hinit, hinput, hret⟩ := h.leaves
    have ⟨hcfg', hinit', hinput', hret'⟩ := h'.leaves
    ⟨hcfg'.trans hcfg, hinit'.trans hinit, hinput'.trans hinput, hret'.trans hret⟩
  latches := h'.latches.trans h.latches
  shadow := by rw [h'.shadow, h.cfg, h.shadow, Params.withLines_withLines]
  ctrlReg := h'.ctrlReg
  trace := by rw [h'.trace, h.trace, List.append_assoc]
  drawn := h.drawn.append h'.drawn

theorem reached_checked (s : State) (hw : Drawn s.env s.env.tail [w]) :
    Reached s (s.checked w) s.clk (sampleTrace s.cfg s.shadow s.clk w) [w] :=
  ⟨⟨rfl, rfl, rfl, rfl⟩, rfl, rfl, rfl, rfl, hw⟩

theorem Reached.addressed (h : Reached s u c tr ws) (hw : Drawn u.env u.env.tail [w]) :
    Reached s (u.addressed w) false
      (tr ++ (startTrace s.cfg s.shadow c true ++
        sendTrace s.cfg s.shadow true (addressByte s.tAddr s.tDir) w)) (ws ++ [w]) := by
  have haddr : u.tAddr = s.tAddr := congrArg Latches.addr h.latches
  have hdir : u.tDir = s.tDir := congrArg Latches.dir h.latches
  have hu : Reached u (u.addressed w) false _ [w] := ⟨⟨rfl, rfl, rfl, rfl⟩, rfl, rfl, rfl, rfl, hw⟩
  simpa [h.cfg, h.shadow, h.clk, h.sdo, haddr, hdir] using h.trans hu

theorem Reached.sent (h : Reached s u false tr ws) (b : Byte) (hw : Drawn u.env u.env.tail [w]) :
    Reached s (u.sent b w) false (tr ++ sendTrace s.cfg s.shadow false b w) (ws ++ [w]) := by
  have hu : Reached u (u.sent b w) false _ [w] := ⟨⟨rfl, rfl, rfl, rfl⟩, rfl, rfl, rfl, rfl, hw⟩
  simpa [h.cfg, h.shadow, h.clk] using h.trans hu

theorem Reached.stop (h : Reached s u false tr ws) :
    Reached s (stop u) true (tr ++ stopTrace s.cfg s.shadow false) ws := by
  have hu : Reached u (Machine.stop u) true (stopTrace u.cfg u.shadow u.clk) [] := by
    rw [stop_eq]
    exact ⟨⟨rfl, rfl, rfl, rfl⟩, rfl, rfl, rfl, rfl, rfl⟩
  simpa [h.cfg, h.shadow, h.clk] using h.trans hu

/-! ### The ends of an `access` -/

/-- `Ended` with the data line high, as every `access` leaves it, and with what the request does not change. R89. -/
structure Delivered (s t : State) (r : Result) (c : Bool) (tr : List Event) (ws : List Word) : Prop where
  leaves : RequestLeaves s t
  latches : t.latches = s.latches
  ended : Ended s t r c true tr ws

theorem Reached.finish (h : Reached s u c tr ws) (r : Result) : Delivered s (finish r u) r c tr ws :=
  ⟨h.leaves, h.latches, rfl, rfl, rfl, h.shadow, h.ctrlReg, h.trace, h.drawn⟩

/-- The ends of an `access` on the request accepted in `s`: for each path the samples that lead to it, and its result,
trace, answers, latches and flags. After the last byte of a write, and after a read, the acknowledge decides the result
alone. R90, R91 to R95. -/
inductive AccessEnd (s t : State) : Prop where
  | busy {w0 : Word} (h0 : s.cfg.sdi w0 = false)
      (hd : Delivered s t (.fail .busBusy) s.clk (sampleTrace s.cfg s.shadow s.clk w0) [w0])
      (hg : EngineHolds t s.aByte s.bitIdx s.ackF s.rxAcc s.rdFail)
  | unsupported {w0 : Word} (h0 : s.cfg.sdi w0 = true) (hz : sizeUnsupported s.tSize = true)
      (hd : Delivered s t (.fail .unsupported) s.clk (sampleTrace s.cfg s.shadow s.clk w0) [w0])
      (hg : EngineHolds t s.aByte s.bitIdx s.ackF s.rxAcc s.rdFail)
  | addressRefused {w0 w1 : Word} (h0 : s.cfg.sdi w0 = true) (hz : sizeUnsupported s.tSize = false)
      (h1 : s.cfg.sdi w1 ≠ s.cfg.ackSample)
      (hd : Delivered s t (.fail .noAckAddress) true
        (headTrace s s.tAddr s.tDir w0 w1 ++ stopTrace s.cfg s.shadow false) [w0, w1])
      (hg : EngineHolds t (addressByte s.tAddr s.tDir) t.bitIdx false s.rxAcc s.rdFail)
  | byteWritten {w0 w1 w2 : Word} (h0 : s.cfg.sdi w0 = true) (hz : s.tSize = sizeByte) (hw : s.tDir = .write)
      (h1 : s.cfg.sdi w1 = s.cfg.ackSample)
      (hd : Delivered s t (if s.cfg.sdi w2 = s.cfg.ackSample then .okWrite else .fail .noAckData) true
        (headTrace s s.tAddr s.tDir w0 w1 ++ sendTrace s.cfg s.shadow false s.tCmd w2 ++
          stopTrace s.cfg s.shadow false) [w0, w1, w2])
      (hg : EngineHolds t (addressByte s.tAddr s.tDir) t.bitIdx (s.cfg.sdi w2 == s.cfg.ackSample) s.rxAcc s.rdFail)
  | commandRefused {w0 w1 w2 : Word} (h0 : s.cfg.sdi w0 = true) (hz : s.tSize = sizeByteData) (hw : s.tDir = .write)
      (h1 : s.cfg.sdi w1 = s.cfg.ackSample) (h2 : s.cfg.sdi w2 ≠ s.cfg.ackSample)
      (hd : Delivered s t (.fail .noAckData) true
        (headTrace s s.tAddr s.tDir w0 w1 ++ sendTrace s.cfg s.shadow false s.tCmd w2 ++
          stopTrace s.cfg s.shadow false) [w0, w1, w2])
      (hg : EngineHolds t (addressByte s.tAddr s.tDir) t.bitIdx false s.rxAcc s.rdFail)
  | dataWritten {w0 w1 w2 w3 : Word} (h0 : s.cfg.sdi w0 = true) (hz : s.tSize = sizeByteData) (hw : s.tDir = .write)
      (h1 : s.cfg.sdi w1 = s.cfg.ackSample) (h2 : s.cfg.sdi w2 = s.cfg.ackSample)
      (hd : Delivered s t (if s.cfg.sdi w3 = s.cfg.ackSample then .okWrite else .fail .noAckData) true
        (headTrace s s.tAddr s.tDir w0 w1 ++ sendTrace s.cfg s.shadow false s.tCmd w2 ++
          sendTrace s.cfg s.shadow false s.tData w3 ++ stopTrace s.cfg s.shadow false) [w0, w1, w2, w3])
      (hg : EngineHolds t (addressByte s.tAddr s.tDir) t.bitIdx (s.cfg.sdi w3 == s.cfg.ackSample) s.rxAcc s.rdFail)
  | byteRead {w0 w1 : Word} {r : RxDraws} (h0 : s.cfg.sdi w0 = true) (hz : sizeUnsupported s.tSize = false)
      (hr : s.tDir = .read) (h1 : s.cfg.sdi w1 = s.cfg.ackSample)
      (hd : Delivered s t (if s.cfg.sdi r.ack = s.cfg.ackSample then .okRead (r.byte s.cfg) else .fail .noAckRead) true
        (headTrace s s.tAddr s.tDir w0 w1 ++ readTrace s.cfg s.shadow true r ++ stopTrace s.cfg s.shadow false)
        ([w0, w1] ++ r.list))
      (hg : EngineHolds t (addressByte s.tAddr s.tDir) t.bitIdx (s.cfg.sdi r.ack == s.cfg.ackSample) (r.byte s.cfg)
        (s.cfg.sdi r.ack != s.cfg.ackSample))

/-- A supported size that is not BYTE_DATA is BYTE. R44. -/
theorem eq_sizeByte {z : Byte} (h : sizeUnsupported z = false) (h' : z ≠ sizeByteData) : z = sizeByte := by
  simpa [sizeUnsupported, h'] using h

/-- The point after the bus check, START and the address byte. R80, R84. -/
theorem reached_addressed (s : State) {w0 w1 : Word} (hw0 : Drawn s.env s.env.tail [w0])
    (hw1 : Drawn (s.checked w0).env (s.checked w0).env.tail [w1]) :
    Reached s ((s.checked w0).addressed w1) false (headTrace s s.tAddr s.tDir w0 w1) [w0, w1] := by
  simpa [headTrace] using (reached_checked s hw0).addressed hw1

/-- STOP and the end of `access` leave the engine's latches and flags alone. R68, R89. -/
theorem EngineHolds.stopped {a : Byte} {i : Fin 8} {f g : Bool} {x : Byte} (h : EngineHolds u a i f x g) (r : Result) :
    EngineHolds (finish r (stop u)) a (finish r (stop u)).bitIdx f x g := by
  obtain ⟨haByte, -, hackF, hrxAcc, hrdFail⟩ := h
  rw [stop_eq]
  exact ⟨haByte, rfl, hackF, hrxAcc, hrdFail⟩

theorem engineHolds_addressed (s : State) (w0 w1 : Word) :
    EngineHolds ((s.checked w0).addressed w1) (addressByte s.tAddr s.tDir) 0 (s.cfg.sdi w1 == s.cfg.ackSample) s.rxAcc
      s.rdFail := ⟨rfl, rfl, rfl, rfl, rfl⟩

/-- A byte sent leaves its acknowledge in the flag. R71. -/
theorem EngineHolds.sent {a : Byte} {i : Fin 8} {f g : Bool} {x : Byte} (h : EngineHolds u a i f x g) (b : Byte)
    (w : Word) : EngineHolds (u.sent b w) a 0 (u.cfg.sdi w == u.cfg.ackSample) x g :=
  have ⟨haByte, _, _, hrxAcc, hrdFail⟩ := h
  ⟨haByte, rfl, rfl, hrxAcc, hrdFail⟩

/-- The ends of the write path, after an acknowledged address byte. R87, R88. -/
theorem writePath_end (s : State) {w0 w1 : Word} (h0 : s.cfg.sdi w0 = true) (hz : sizeUnsupported s.tSize = false)
    (hw : s.tDir = .write) (h1 : s.cfg.sdi w1 = s.cfg.ackSample)
    (hp : Reached s ((s.checked w0).addressed w1) false (headTrace s s.tAddr s.tDir w0 w1) [w0, w1]) :
    AccessEnd s (writePath ((s.checked w0).addressed w1)) := by
  obtain ⟨w2, hw2, h⟩ := writePath_cases ((s.checked w0).addressed w1)
  have hp2 := hp.sent s.tCmd hw2
  have hg2 := (engineHolds_addressed s w0 w1).sent s.tCmd w2
  obtain ⟨h2, e⟩ | ⟨h2, hz', e⟩ | ⟨h2, hz', w3, hw3, h⟩ := h
  · rw [e]
    by_cases hz' : s.tSize = sizeByteData
    · exact .commandRefused h0 hz' hw h1 h2 (hp2.stop.finish _) (beq_eq_false_iff_ne.mpr h2 ▸ hg2.stopped _)
    · exact .byteWritten h0 (eq_sizeByte hz hz') hw h1 (if_neg h2 ▸ hp2.stop.finish _) (hg2.stopped _)
  · rw [e]
    exact .byteWritten h0 (eq_sizeByte hz hz') hw h1 (if_pos h2 ▸ hp2.stop.finish _) (hg2.stopped _)
  · have hp3 := hp2.sent s.tData hw3
    have hg3 := hg2.sent s.tData w3
    obtain ⟨h3, e⟩ | ⟨h3, e⟩ := h <;> rw [e]
    · exact .dataWritten h0 hz' hw h1 h2 (if_neg h3 ▸ hp3.stop.finish _) (hg3.stopped _)
    · exact .dataWritten h0 hz' hw h1 h2 (if_pos h3 ▸ hp3.stop.finish _) (hg3.stopped _)

/-- The read path as its READBYTE, STOP and result. R86. -/
theorem readPath_received (u : State) : ∃ r env, Drawn u.env env r.list ∧ readPath u =
    finish (if u.cfg.sdi r.ack = u.cfg.ackSample then .okRead (r.byte u.cfg) else .fail .noAckRead)
      (stop (u.received r env)) := by
  obtain ⟨r, env, hr, e⟩ := readByte_spec u
  have hu : (readByte u).2 = u.received r env := by rw [e]; rfl
  refine ⟨r, env, hr, ?_⟩
  rw [readPath_eq, hu]
  congr 1
  rw [stop_eq]
  by_cases h : u.cfg.sdi r.ack = u.cfg.ackSample <;> simp [resultAfterStop, State.received, State.settled, h]

theorem Reached.received (h : Reached s u false tr ws) {r : RxDraws} {env : List Word} (hd : Drawn u.env env r.list) :
    Reached s (u.received r env) false (tr ++ readTrace s.cfg s.shadow true r) (ws ++ r.list) := by
  have hu : Reached u (u.received r env) false _ r.list := ⟨⟨rfl, rfl, rfl, rfl⟩, rfl, rfl, rfl, rfl, hd⟩
  simpa [h.cfg, h.shadow, h.sdo] using h.trans hu

theorem readPath_end (s : State) {w0 w1 : Word} (h0 : s.cfg.sdi w0 = true) (hz : sizeUnsupported s.tSize = false)
    (hr : s.tDir = .read) (h1 : s.cfg.sdi w1 = s.cfg.ackSample)
    (hp : Reached s ((s.checked w0).addressed w1) false (headTrace s s.tAddr s.tDir w0 w1) [w0, w1]) :
    AccessEnd s (readPath ((s.checked w0).addressed w1)) := by
  obtain ⟨r, env, hd, e⟩ := readPath_received ((s.checked w0).addressed w1)
  have hg : EngineHolds (((s.checked w0).addressed w1).received r env) (addressByte s.tAddr s.tDir) 0
    (s.cfg.sdi r.ack == s.cfg.ackSample) (r.byte s.cfg) (s.cfg.sdi r.ack != s.cfg.ackSample) :=
    ⟨rfl, rfl, rfl, rfl, rfl⟩
  rw [e]
  exact .byteRead h0 hz hr h1 ((hp.received hd).stop.finish _) (hg.stopped _)

/-- `access` ends in one of these ways. R79. -/
theorem access_end (s : State) : AccessEnd s (access s) := by
  obtain ⟨w0, hw0, ⟨h0, e⟩ | ⟨h0, hz, e⟩ | ⟨h0, hz, e⟩⟩ := access_cases s <;> rw [e]
  · exact .busy h0 ((reached_checked s hw0).finish _) ⟨rfl, rfl, rfl, rfl, rfl⟩
  · exact .unsupported h0 hz ((reached_checked s hw0).finish _) ⟨rfl, rfl, rfl, rfl, rfl⟩
  · obtain ⟨w1, hw1, h⟩ := transact_cases (s.checked w0)
    have hp := reached_addressed s hw0 hw1
    obtain ⟨h1, e⟩ | ⟨h1, hr, e⟩ | ⟨h1, hw, e⟩ := h <;> rw [e]
    · exact .addressRefused h0 hz h1 (hp.stop.finish _)
        (beq_eq_false_iff_ne.mpr h1 ▸ (engineHolds_addressed s w0 w1).stopped _)
    · exact readPath_end s h0 hz hr h1 hp
    · exact writePath_end s h0 hz hw h1 hp

end Sys2Proof.Machine

/-! SUPPORT. The adapter's statements (spec/42_smbus_adapter.md R78 to R96), each read off the end of `access` that the
request came to; then the step on a word at the port, and a target that acknowledges what it is sent. -/

namespace Sys2Proof.Machine

variable {s t : State}

/-! ### Requests as `exec` takes them -/

/-- The fields of a request's word; an inner operation has none. R42, R45. -/
def requestFields : Instr → Latches
  | .wrb addr cmd data => ⟨sizeByte, .write, addr, cmd, data⟩
  | .rdb addr cmd data => ⟨sizeByte, .read, addr, cmd, data⟩
  | .wrbd addr cmd data => ⟨sizeByteData, .write, addr, cmd, data⟩
  | .rdbd addr cmd data => ⟨sizeByteData, .read, addr, cmd, data⟩
  | .unsup size dir addr cmd data => ⟨size, dir, addr, cmd, data⟩
  | .setdata _ | .clockon | .clockoff | .commit | .readdataline | .start | .stop | .readbit | .ackcheck | .sendbyte _
  | .readbyte | .busbusy => ⟨0, .write, 0, 0, 0⟩

/-- The state in which a request with the fields `l` was accepted. R78. -/
abbrev accepted (l : Latches) (s : State) : State := accept l.size l.dir l.addr l.cmd l.data s

/-- In `IDLE` a request is run to one of the ends of `access`. R78, R79. -/
theorem exec_request_end {i : Instr} (hr : i.isRequest = true) (hp : s.phase = .idle) :
    ∃ t, exec i s = .next t ∧ AccessEnd (accepted (requestFields i) s) t := by
  refine ⟨access (accepted (requestFields i) s), ?_, access_end _⟩
  cases i with
  | wrb | rdb | wrbd | rdbd | unsup => exact request_idle s hp ..
  | _ => cases hr

theorem AccessEnd.delivered (h : AccessEnd s t) :
    ∃ r c tr ws, (c = s.clk ∨ c = true) ∧ Delivered s t r c tr ws := by
  cases h with
  | busy _ hd | unsupported _ _ hd => exact ⟨_, _, _, _, .inl rfl, hd⟩
  | addressRefused _ _ _ hd | byteWritten _ _ _ _ hd | commandRefused _ _ _ _ _ hd | dataWritten _ _ _ _ _ hd
  | byteRead _ _ _ _ hd => exact ⟨_, _, _, _, .inr rfl, hd⟩

/-- What holds at every end: what no request changes, and the latches as the request's fields. R20, R78. -/
theorem AccessEnd.frame {l : Latches} (h : AccessEnd (accepted l s) t) :
    RequestLeaves s t ∧ Latched t l.size l.dir l.addr l.cmd l.data := by
  obtain ⟨_, _, _, _, -, hd⟩ := h.delivered
  exact ⟨hd.leaves, congrArg Latches.size hd.latches, congrArg Latches.dir hd.latches, congrArg Latches.addr hd.latches,
    congrArg Latches.cmd hd.latches, congrArg Latches.data hd.latches⟩

theorem sizeUnsupported_sizeByte : sizeUnsupported sizeByte = false := rfl

theorem sizeUnsupported_sizeByteData : sizeUnsupported sizeByteData = false := rfl

theorem sizeByte_ne_sizeByteData : sizeByte ≠ sizeByteData := by decide

/-! ### The rules of the five shapes -/

/-- Settles O30: a request of size BYTE and direction write ends busy, at its address byte or at its command byte. -/
theorem writeByteFollowsItsRule : Obligations.WriteByteFollowsItsRule := by
  intro s addr cmd data hp
  obtain ⟨t, hnext, h⟩ := exec_request_end (i := .wrb addr cmd data) rfl hp
  obtain ⟨hleaves, hlatched⟩ := h.frame
  cases h with
  | @busy w0 h0 hd hg =>
    refine ⟨t, w0, 0, 0, hnext, hleaves, hlatched, ?_⟩
    exact (if_pos h0).mpr ⟨hd.ended, hg⟩
  | @addressRefused w0 w1 h0 _ h1 hd hg =>
    refine ⟨t, w0, w1, 0, hnext, hleaves, hlatched, ?_⟩
    exact (if_neg (ne_false_of_eq_true h0)).mpr <| (if_pos h1).mpr ⟨hd.ended, hg⟩
  | @byteWritten w0 w1 w2 h0 _ _ h1 hd hg =>
    refine ⟨t, w0, w1, w2, hnext, hleaves, hlatched, ?_⟩
    exact (if_neg (ne_false_of_eq_true h0)).mpr <| (if_neg (not_not.mpr h1)).mpr ⟨hd.ended, hg⟩
  | unsupported _ hz => cases sizeUnsupported_sizeByte.symm.trans hz
  | commandRefused _ hz | dataWritten _ hz => exact absurd hz sizeByte_ne_sizeByteData
  | byteRead _ _ hr => cases hr

/-- Settles O31: a request of size BYTE_DATA and direction write ends busy, at its address byte, at a refused command
byte or at its data byte. -/
theorem writeByteDataFollowsItsRule : Obligations.WriteByteDataFollowsItsRule := by
  intro s addr cmd data hp
  obtain ⟨t, hnext, h⟩ := exec_request_end (i := .wrbd addr cmd data) rfl hp
  obtain ⟨hleaves, hlatched⟩ := h.frame
  cases h with
  | @busy w0 h0 hd hg =>
    refine ⟨t, w0, 0, 0, 0, hnext, hleaves, hlatched, ?_⟩
    exact (if_pos h0).mpr ⟨hd.ended, hg⟩
  | @addressRefused w0 w1 h0 _ h1 hd hg =>
    refine ⟨t, w0, w1, 0, 0, hnext, hleaves, hlatched, ?_⟩
    exact (if_neg (ne_false_of_eq_true h0)).mpr <| (if_pos h1).mpr ⟨hd.ended, hg⟩
  | @commandRefused w0 w1 w2 h0 _ _ h1 h2 hd hg =>
    refine ⟨t, w0, w1, w2, 0, hnext, hleaves, hlatched, ?_⟩
    exact (if_neg (ne_false_of_eq_true h0)).mpr <| (if_neg (not_not.mpr h1)).mpr <| (if_pos h2).mpr ⟨hd.ended, hg⟩
  | @dataWritten w0 w1 w2 w3 h0 _ _ h1 h2 hd hg =>
    refine ⟨t, w0, w1, w2, w3, hnext, hleaves, hlatched, ?_⟩
    exact (if_neg (ne_false_of_eq_true h0)).mpr <| (if_neg (not_not.mpr h1)).mpr <|
      (if_neg (not_not.mpr h2)).mpr ⟨hd.ended, hg⟩
  | unsupported _ hz => cases sizeUnsupported_sizeByteData.symm.trans hz
  | byteWritten _ hz => exact absurd hz.symm sizeByte_ne_sizeByteData
  | byteRead _ _ hr => cases hr

/-- Settles O32: a request of a supported size and direction read ends busy, at its address byte or after READBYTE. -/
theorem readByteFollowsItsRule : Obligations.ReadByteFollowsItsRule := by
  intro s i size addr cmd data hp hi
  have hr : i.isRequest = true := by obtain ⟨rfl, -⟩ | ⟨rfl, -⟩ := hi <;> rfl
  have hf : requestFields i = ⟨size, .read, addr, cmd, data⟩ := by obtain ⟨rfl, rfl⟩ | ⟨rfl, rfl⟩ := hi <;> rfl
  have hs : sizeUnsupported size = false := by obtain ⟨-, rfl⟩ | ⟨-, rfl⟩ := hi <;> rfl
  obtain ⟨t, hnext, h⟩ := exec_request_end hr hp
  rw [hf] at h
  obtain ⟨hleaves, hlatched⟩ := h.frame
  cases h with
  | @busy w0 h0 hd hg =>
    refine ⟨t, w0, 0, ⟨0, 0, 0, 0, 0, 0, 0, 0, 0⟩, hnext, hleaves, hlatched, ?_⟩
    exact (if_pos h0).mpr ⟨hd.ended, hg⟩
  | @addressRefused w0 w1 h0 _ h1 hd hg =>
    refine ⟨t, w0, w1, ⟨0, 0, 0, 0, 0, 0, 0, 0, 0⟩, hnext, hleaves, hlatched, ?_⟩
    exact (if_neg (ne_false_of_eq_true h0)).mpr <| (if_pos h1).mpr ⟨hd.ended, hg⟩
  | @byteRead w0 w1 r h0 _ _ h1 hd hg =>
    refine ⟨t, w0, w1, r, hnext, hleaves, hlatched, ?_⟩
    exact (if_neg (ne_false_of_eq_true h0)).mpr <| (if_neg (not_not.mpr h1)).mpr ⟨hd.ended, hg⟩
  | unsupported _ hz => cases hs.symm.trans hz
  | byteWritten _ _ hw | commandRefused _ _ hw | dataWritten _ _ hw => cases hw

/-- Settles O33: a request of an unsupported size ends at the bus check, with either sample. -/
theorem unsupportedFollowsItsRule : Obligations.UnsupportedFollowsItsRule := by
  intro s size dir addr cmd data hp h1 h2
  have hs : sizeUnsupported size = true := by simp [sizeUnsupported, h1, h2]
  obtain ⟨t, hnext, h⟩ := exec_request_end (i := .unsup size dir addr cmd data) rfl hp
  obtain ⟨hleaves, hlatched⟩ := h.frame
  cases h with
  | @busy w0 h0 hd hg =>
    exact ⟨t, w0, hnext, hleaves, hlatched, (if_pos h0).symm ▸ hd.ended, hg⟩
  | @unsupported w0 h0 _ hd hg =>
    exact ⟨t, w0, hnext, hleaves, hlatched, (if_neg (ne_false_of_eq_true h0)).symm ▸ hd.ended, hg⟩
  | addressRefused _ hz | byteRead _ hz => cases hz.symm.trans hs
  | byteWritten _ hz => exact absurd hz h1
  | commandRefused _ hz | dataWritten _ hz => exact absurd hz h2

/-- Settles O39: a read looks at the size only to see that it is supported. -/
theorem readShapesBehaveAlike : Obligations.ReadShapesBehaveAlike := by
  intro s addr cmd data hp
  exact request_relatch (f := fun l => { l with size := sizeByteData }) hp ⟨sizeByte, .read, addr, cmd, data⟩
    (.of_read rfl rfl rfl rfl)

/-! ### The bus check -/

/-- `access` begins with the bus check, and the sample of 0 alone ends it there. R80. -/
theorem AccessEnd.sampled (h : AccessEnd s t) : ∃ w r c tr ws,
    Delivered s t r c (sampleTrace s.cfg s.shadow s.clk w ++ tr) ws ∧
    ((s.cfg.sdi w = false ∧ tr = [] ∧ r = .fail .busBusy ∧ c = s.clk) ∨
     (s.cfg.sdi w = true ∧ r ≠ .fail .busBusy)) := by
  cases h with
  | @busy w0 h0 hd =>
    exact ⟨w0, .fail .busBusy, s.clk, [], [w0], by simpa using hd, .inl ⟨h0, rfl, rfl, rfl⟩⟩
  | @unsupported w0 h0 _ hd =>
    exact ⟨w0, .fail .unsupported, s.clk, [], [w0], by simpa using hd, .inr ⟨h0, nofun⟩⟩
  | addressRefused h0 _ _ hd | commandRefused h0 _ _ _ _ hd =>
    simp only [headTrace, List.append_assoc] at hd
    exact ⟨_, _, _, _, _, hd, .inr ⟨h0, nofun⟩⟩
  | byteWritten h0 _ _ _ hd | dataWritten h0 _ _ _ _ hd | byteRead h0 _ _ _ hd =>
    simp only [headTrace, List.append_assoc] at hd
    exact ⟨_, _, _, _, _, hd, .inr ⟨h0, by split_ifs <;> nofun⟩⟩

theorem Delivered.clk {r : Result} {c : Bool} {tr : List Event} {ws : List Word} (h : Delivered s t r c tr ws) :
    t.clk = c := by
  obtain ⟨-, -, -, hshadow, -⟩ := h.ended
  rw [State.clk, hshadow, h.leaves.1, Params.clk_withLines]

/-- Settles O34: the sample of 0 leaves the bus check's two events as the whole trace, and on idle lines its write
commands (1, 1) again. -/
theorem busyBusEndsEveryRequestAtOnce : Obligations.BusyBusEndsEveryRequestAtOnce := by
  intro s i hr _ hp
  obtain ⟨t, hnext, h⟩ := exec_request_end hr hp
  obtain ⟨w, r, c, tr, ws, hd, hw⟩ := h.sampled
  obtain ⟨hphase, -, hstatus, -, -, htrace, -⟩ := hd.ended
  refine ⟨t, w, tr, hnext, htrace, fun h0 => ?_, fun h1 => ?_⟩
  · obtain ⟨-, rfl, rfl, rfl⟩ | ⟨h1, -⟩ := hw
    · exact ⟨rfl, hstatus, hphase, hd.clk, fun hc => by simp [hc, List.filterMap_cons, mergeAfter]⟩
    · cases h0.symm.trans h1
  · obtain ⟨h0, -⟩ | ⟨-, hr⟩ := hw
    · cases h0.symm.trans h1
    · simpa [hstatus] using hr

/-! ### The end of a request -/

/-- The direction field, written out as its bit. R42, R43. -/
theorem reqDir_eq_ite (w : Word) : reqDir w = if w.getLsbD 23 then .read else .write := by
  have h := reqDir_eq_read_iff w
  cases hd : reqDir w <;> simp_all

/-- Settles O15: the request word is taken apart into the five latches, and every end of `access` delivers a result. -/
theorem acceptanceLatchesTheRequestWord : Obligations.AcceptanceLatchesTheRequestWord := by
  intro s w hp
  refine ⟨by rw [reqDir_eq_ite]; rfl, ?_⟩
  have h := access_end (accepted ⟨reqSize w, reqDir w, reqAddr w, reqCommand w, reqData w⟩ s)
  obtain ⟨-, hlatched⟩ := h.frame
  obtain ⟨r, _, _, _, -, hd⟩ := h.delivered
  obtain ⟨hphase, -, hstatus, -⟩ := hd.ended
  exact ⟨_, (exec_decodeReq s w).trans (request_idle s hp ..), hphase, by rw [hstatus]; nofun, hlatched⟩

/-- With the enable bits kept, both lines high is `SHADOW_INIT`. R11, R107. -/
theorem EnableBitsKept.withLines_high (h : EnableBitsKept s) : s.cfg.withLines s.shadow true true = s.cfg.shadowInit := by
  rw [s.cfg.withLines_congr h.1]
  have hinit := s.cfg.withLines_self s.cfg.shadowInit
  rwa [show s.cfg.clk s.cfg.shadowInit = true from s.cfg.clock_on,
    show s.cfg.sdo s.cfg.shadowInit = true from s.cfg.data_on] at hinit

/-- Settles O40: from idle lines every end of `access` leaves both lines high. -/
theorem everyAccessEndsIdle : Obligations.EveryAccessEndsIdle := by
  rintro s i hr - ⟨hp, hclk, -⟩ hbits
  obtain ⟨t, hnext, h⟩ := exec_request_end hr hp
  obtain ⟨r, c, tr, ws, hc, hd⟩ := h.delivered
  obtain rfl : c = true := hc.elim (·.trans hclk) id
  obtain ⟨hphase, -, -, hshadow, hctrl, -⟩ := hd.ended
  have hinit : t.shadow = s.cfg.shadowInit := hshadow.trans hbits.withLines_high
  have hsdo : t.sdo = true := by rw [State.sdo, hshadow, hd.leaves.1, Params.sdo_withLines]
  exact ⟨t, hnext, ⟨hphase, hd.clk, hsdo⟩, hinit, hctrl.trans hinit⟩

/-! ### The counts of R96 -/

/-- The bounds of the table of R96. -/
theorem countsAllowed_le {i : Instr} {r : Result} {m n : Nat} (h : countsAllowed i r m n) : m ≤ 91 ∧ n ≤ 11 := by
  unfold countsAllowed at h
  split at h
  case h_6 => split at h <;> omega
  case h_7 => split at h <;> omega
  all_goals omega

/-- A well-formed request of size BYTE that writes is a WRB. R45. -/
theorem eq_wrb {i : Instr} (hr : i.isRequest = true) (hf : i.wf = true) (hz : (requestFields i).size = sizeByte)
    (hw : (requestFields i).dir = .write) : ∃ a c v, i = .wrb a c v := by
  cases i with
  | wrb a c v => exact ⟨a, c, v, rfl⟩
  | rdb | rdbd => cases hw
  | wrbd => exact absurd hz.symm sizeByte_ne_sizeByteData
  | unsup z => simp_all [Instr.wf, requestFields]
  | _ => cases hr

/-- A well-formed request of size BYTE_DATA that writes is a WRBD. R45. -/
theorem eq_wrbd {i : Instr} (hr : i.isRequest = true) (hf : i.wf = true) (hz : (requestFields i).size = sizeByteData)
    (hw : (requestFields i).dir = .write) : ∃ a c v, i = .wrbd a c v := by
  cases i with
  | wrbd a c v => exact ⟨a, c, v, rfl⟩
  | rdb | rdbd => cases hw
  | wrb => exact absurd hz sizeByte_ne_sizeByteData
  | unsup z => simp_all [Instr.wf, requestFields]
  | _ => cases hr

/-- From `s` to `t` the writes and reads are those the table of R96 gives the operation `i` and the result. -/
def CountsAsTabled (i : Instr) (s t : State) : Prop :=
  ∃ tr r, t.trace = s.trace ++ tr ∧ t.status = some r ∧ countsAllowed i r (numWrites s.cfg tr) (numReads s.cfg tr)

theorem Delivered.countsAsTabled {i : Instr} {l : Latches} {r : Result} {c : Bool} {tr : List Event} {ws : List Word}
    (h : Delivered (accepted l s) t r c tr ws) (hc : countsAllowed i r (numWrites s.cfg tr) (numReads s.cfg tr)) :
    CountsAsTabled i s t := by
  obtain ⟨-, -, hstatus, -, -, htrace, -⟩ := h.ended
  exact ⟨tr, r, htrace, hstatus, hc⟩

/-- Each end's trace is made of the traces of engine operations, whose counts add up to the row. R76, R96. -/
theorem AccessEnd.countsAsTabled {i : Instr} (hr : i.isRequest = true) (hf : i.wf = true)
    (h : AccessEnd (accepted (requestFields i) s) t) : CountsAsTabled i s t := by
  cases h with
  | busy _ hd | unsupported _ _ hd | addressRefused _ _ _ hd =>
    exact hd.countsAsTabled (by simp [countsAllowed, headTrace])
  | byteWritten _ hz hw _ hd =>
    obtain ⟨a, c, v, rfl⟩ := eq_wrb hr hf hz hw
    exact hd.countsAsTabled (by split_ifs <;> simp [countsAllowed, headTrace])
  | commandRefused _ hz hw _ _ hd =>
    obtain ⟨a, c, v, rfl⟩ := eq_wrbd hr hf hz hw
    exact hd.countsAsTabled (by simp [countsAllowed, headTrace])
  | dataWritten _ hz hw _ _ hd =>
    obtain ⟨a, c, v, rfl⟩ := eq_wrbd hr hf hz hw
    exact hd.countsAsTabled (by split_ifs <;> simp [countsAllowed, headTrace])
  | byteRead _ _ _ _ hd => exact hd.countsAsTabled (by split_ifs <;> simp [countsAllowed, headTrace])

/-- Settles O41: the rows hold at every end, and no row is above 91 and 11. -/
theorem accessCountsByOutcome : Obligations.AccessCountsByOutcome := by
  intro s i hr hf hp
  obtain ⟨t, hnext, h⟩ := exec_request_end hr hp
  obtain ⟨tr, r, htrace, hstatus, hcounts⟩ := h.countsAsTabled hr hf
  exact ⟨t, tr, r, hnext, htrace, hstatus, hcounts, countsAllowed_le hcounts⟩

/-! ### The step and the port -/

/-- Settles O14: acceptance asks for `IDLE`, whichever the request. -/
theorem requestInFlightIsRefused : Obligations.RequestInFlightIsRefused := by
  intro s i hr hp
  obtain ⟨hidle, -⟩ | ⟨-, h⟩ := exec_request i s hr
  · exact absurd hidle hp
  · exact h

/-- Settles O10: the step's branch for a word the decoder accepts. -/
theorem stepRunsTheDecodedOperation : Obligations.StepRunsTheDecodedOperation := by
  intro s p rest i hp hin hd
  simp [step, hp, hin, hd]

/-- Settles O11: the word placed is the oldest waiting, and the step takes it off again. -/
theorem fetchedWordRunsNext : Obligations.FetchedWordRunsNext := by
  intro s nbits w p i hw hd
  have hplaced : s.withFetchWord nbits w = { s with phase := .idle, evt := 0, input := p :: s.input } := by
    simp [State.withFetchWord, hw]
  rw [hplaced, stepRunsTheDecodedOperation _ p s.input i rfl rfl hd]

/-! ### A target that acknowledges -/

/-- A scripted answer is the one drawn. R31. -/
@[simp] theorem drawn_cons_cons (x : Word) (env after : List Word) (w : Word) (ws : List Word) :
    Drawn (x :: env) after (w :: ws) ↔ w = x ∧ Drawn env after ws := by simp [Drawn]

@[simp] theorem drawn_nil (env after : List Word) : Drawn env after [] ↔ after = env := Iff.rfl

theorem Delivered.drawn {r : Result} {c : Bool} {tr : List Event} {ws : List Word} (h : Delivered s t r c tr ws) :
    Drawn s.env t.env ws := by
  obtain ⟨-, -, -, -, -, -, hdrawn⟩ := h.ended
  exact hdrawn

/-- With a free bus and four acknowledges scripted, a write of BYTE_DATA ends in `Ok_write`. R93. -/
theorem AccessEnd.okWrite_of_acks {w0 w1 w2 w3 : Word} {env : List Word} (h : AccessEnd s t)
    (hz : s.tSize = sizeByteData) (hw : s.tDir = .write) (henv : s.env = w0 :: w1 :: w2 :: w3 :: env)
    (h0 : s.cfg.sdi w0 = true) (h1 : s.cfg.sdi w1 = s.cfg.ackSample) (h2 : s.cfg.sdi w2 = s.cfg.ackSample)
    (h3 : s.cfg.sdi w3 = s.cfg.ackSample) :
    t.env = env ∧ Delivered s t .okWrite true
      (headTrace s s.tAddr s.tDir w0 w1 ++ sendTrace s.cfg s.shadow false s.tCmd w2 ++
        sendTrace s.cfg s.shadow false s.tData w3 ++ stopTrace s.cfg s.shadow false) [w0, w1, w2, w3] := by
  cases h with
  | dataWritten _ _ _ _ _ hd =>
    obtain ⟨rfl, rfl, rfl, rfl, ht⟩ : _ = w0 ∧ _ = w1 ∧ _ = w2 ∧ _ = w3 ∧ _ := by simpa [henv] using hd.drawn
    rw [if_pos h3] at hd
    exact ⟨ht, hd⟩
  | busy h0' hd =>
    obtain ⟨rfl, -⟩ : _ = w0 ∧ _ := by simpa [henv] using hd.drawn
    cases h0.symm.trans h0'
  | addressRefused _ _ h1' hd =>
    obtain ⟨-, rfl, -⟩ : _ ∧ _ = w1 ∧ _ := by simpa [henv] using hd.drawn
    exact absurd h1 h1'
  | commandRefused _ _ _ _ h2' hd =>
    obtain ⟨-, -, rfl, -⟩ : _ ∧ _ ∧ _ = w2 ∧ _ := by simpa [henv] using hd.drawn
    exact absurd h2 h2'
  | unsupported _ hz' =>
    rw [hz, sizeUnsupported_sizeByteData] at hz'
    cases hz'
  | byteWritten _ hz' => exact absurd (hz'.symm.trans hz) sizeByte_ne_sizeByteData
  | byteRead _ _ hr => cases hw.symm.trans hr

/-- With a free bus, an acknowledged address byte and the draws `r` scripted, the last of them an acknowledge, a read ends
in `Ok_read` of the byte drawn. R92, R94. -/
theorem AccessEnd.okRead_of_acks {w0 w1 : Word} {r : RxDraws} (h : AccessEnd s t)
    (hz : sizeUnsupported s.tSize = false) (hr : s.tDir = .read) (henv : s.env = [w0, w1] ++ r.list)
    (h0 : s.cfg.sdi w0 = true) (h1 : s.cfg.sdi w1 = s.cfg.ackSample) (hack : s.cfg.sdi r.ack = s.cfg.ackSample) :
    t.status = some (.okRead (r.byte s.cfg)) := by
  cases h with
  | @byteRead _ _ r' _ _ _ _ hd =>
    obtain rfl : r' = r := by
      have hdrawn := hd.drawn
      cases r; cases r'
      simp_all [RxDraws.list]
    obtain ⟨-, -, hstatus, -⟩ := hd.ended
    rwa [if_pos hack] at hstatus
  | busy h0' hd =>
    obtain ⟨rfl, -⟩ : _ = w0 ∧ _ := by simpa [henv] using hd.drawn
    cases h0.symm.trans h0'
  | addressRefused _ _ h1' hd =>
    obtain ⟨-, rfl, -⟩ : _ ∧ _ = w1 ∧ _ := by simpa [henv] using hd.drawn
    exact absurd h1 h1'
  | unsupported _ hz' => cases hz.symm.trans hz'
  | byteWritten _ _ hw | commandRefused _ _ hw | dataWritten _ _ hw => cases hr.symm.trans hw

/-- A step in `IDLE` on a request ends as `access` ends. R78. -/
theorem step_request_end {q : PortWord} {rest : List PortWord} {i : Instr} (hp : s.phase = .idle)
    (hin : s.input = q :: rest) (hd : decode q = .ok i) (hr : i.isRequest = true) :
    ∃ t, step s = .next t ∧ AccessEnd (accepted (requestFields i) { s with input := rest }) t := by
  rw [stepRunsTheDecodedOperation s q rest i hp hin hd]
  exact exec_request_end hr hp

/-- Settles O43: the word is the WRBD of the address 0x50, whose address byte is 0xA0. -/
theorem workedExampleSucceeds : Obligations.WorkedExampleSucceeds := by
  rintro s w0 w1 w2 w3 rest ⟨hp, hclk, -⟩ hack hin henv h0 h1 h2 h3
  obtain ⟨-, -, hdecode, -⟩ := writtenOutWordsDecode
  obtain ⟨-, hbyte, -⟩ := addressByteIsAddressThenDirection
  obtain ⟨t, hnext, h⟩ := step_request_end hp hin hdecode rfl
  obtain ⟨-, hd⟩ := h.okWrite_of_acks rfl rfl henv h0 (h1.trans hack.symm) (h2.trans hack.symm) (h3.trans hack.symm)
  obtain ⟨-, -, hstatus, -, -, htrace, -⟩ := hd.ended
  have htrace : t.trace = s.trace ++ (headTrace s 0x50 .write w0 w1 ++ sendTrace s.cfg s.shadow false 0x10 w2 ++
    sendTrace s.cfg s.shadow false 0xAB w3 ++ stopTrace s.cfg s.shadow false) := htrace
  refine ⟨t, hnext, hstatus, ?_⟩
  rw [htrace, headTrace, hclk, hbyte]
  simp only [List.append_assoc]

/-- The draws of a READBYTE from a target that answers with the bits of `v`. R73. -/
def drawsOf (bitWord : Bool → Word) (v : Byte) (ack : Word) : RxDraws :=
  ⟨bitWord (v.getLsbD 7), bitWord (v.getLsbD 6), bitWord (v.getLsbD 5), bitWord (v.getLsbD 4), bitWord (v.getLsbD 3),
    bitWord (v.getLsbD 2), bitWord (v.getLsbD 1), bitWord (v.getLsbD 0), ack⟩

theorem byte_drawsOf {p : Params} {bitWord : Bool → Word} (hbit : ∀ b, p.sdi (bitWord b) = b) (v : Byte) (ack : Word) :
    (drawsOf bitWord v ack).byte p = v := by
  apply BitVec.eq_of_getLsbD_eq
  intro k hk
  refine ((drawsOf bitWord v ack).getLsbD_byte p ⟨k, hk⟩).trans ?_
  interval_cases k <;> exact hbit _

/-- A line of either read shape decodes to a request that reads with a supported size. R54, R94. -/
theorem decode_assembled_read {a : SlaveAddr} {read : Asm} (h : read = .rdb a ∨ read = .rdbd a) :
    ∃ i, decode (.req (assemble read)) = .ok i ∧ i.isRequest = true ∧
      sizeUnsupported (requestFields i).size = false ∧ (requestFields i).dir = .read := by
  obtain ⟨-, hrdb, -, hrdbd, -⟩ := assembledLinesDecode
  obtain rfl | rfl := h
  · exact ⟨_, hrdb a, rfl, rfl, rfl⟩
  · exact ⟨_, hrdbd a, rfl, rfl, rfl⟩

/-- Settles O44: the write draws the first four answers and succeeds, and the read finds the others next. -/
theorem writtenByteReadsBack : Obligations.WrittenByteReadsBack := by
  intro s a c v read hi ack bitWord hp hread hin hhi hack hbit henv
  obtain ⟨-, -, hdecode, -⟩ := assembledLinesDecode
  obtain ⟨i, hdecode', hr, hz, hdir⟩ := decode_assembled_read hread
  obtain ⟨t, hnext, h⟩ := step_request_end hp hin (hdecode a c v) rfl
  obtain ⟨htenv, hd⟩ := h.okWrite_of_acks rfl rfl henv hhi hack hack hack
  obtain ⟨hidle, -, hstatus, -⟩ := hd.ended
  obtain ⟨hcfg, -, htin, -⟩ := hd.leaves
  have hcfg : t.cfg = s.cfg := hcfg
  obtain ⟨u, hnext', h'⟩ := step_request_end hidle htin hdecode' hr
  rw [← hcfg] at hhi hack hbit
  have hstatus' : u.status = some (.okRead ((drawsOf bitWord v ack).byte t.cfg)) :=
    h'.okRead_of_acks hz hdir htenv hhi hack hack
  rw [byte_drawsOf hbit] at hstatus'
  exact ⟨t, u, hnext, hstatus, hnext', hstatus'⟩

end Sys2Proof.Machine

/-! SUPPORT. The result of a request as a function of its fields and of the samples (spec/60_exceptions.md R103): the ends
of `access` compute it, its values are the entries of the table of R103, and each entry has samples that give it. Then
R114's `IDLE`. -/

namespace Sys2Proof.Machine

variable {s t : State} {i : Instr} {l : Latches} {r : Result} {ack : Bool}

/-! ### The result, computed -/

/-- The byte of eight data samples, the first of them its bit 7. R73. -/
def byteOf (x7 x6 x5 x4 x3 x2 x1 x0 : Bool) : Byte := BitVec.ofBoolListBE [x7, x6, x5, x4, x3, x2, x1, x0]

theorem byteOf_draws (p : Params) (d : RxDraws) :
    byteOf (p.sdi d.w7) (p.sdi d.w6) (p.sdi d.w5) (p.sdi d.w4) (p.sdi d.w3) (p.sdi d.w2) (p.sdi d.w1) (p.sdi d.w0) =
      d.byte p := rfl

theorem byteOf_bits : ∀ b : Byte, byteOf b[7] b[6] b[5] b[4] b[3] b[2] b[1] b[0] = b := by decide

/-- The result of a request with the fields `l`, when the sample that acknowledges is `ack` and the reads sample `xs`, in
this order: the tests of R79, each on the sample of its own read. (A read that `xs` is too short for samples 0.) -/
def resultOf (l : Latches) (ack : Bool) (xs : List Bool) : Result :=
  let x := fun k => xs.getD k false
  if x 0 = false then .fail .busBusy
  else if sizeUnsupported l.size = true then .fail .unsupported
  else if x 1 ≠ ack then .fail .noAckAddress
  else match l.dir with
    | .read =>
      if x 10 = ack then .okRead (byteOf (x 2) (x 3) (x 4) (x 5) (x 6) (x 7) (x 8) (x 9)) else .fail .noAckRead
    | .write =>
      if x 2 = ack ∧ (l.size = sizeByteData → x 3 = ack) then .okWrite else .fail .noAckData

theorem Delivered.status {c : Bool} {tr : List Event} {ws : List Word} (h : Delivered s t r c tr ws) :
    t.status = some r := by
  obtain ⟨-, -, hstatus, -⟩ := h.ended
  exact hstatus

/-- Every `access` delivers the result its fields and its samples give, and what would be sampled after the at most
eleven answers drawn plays no part. R79, R103. -/
theorem AccessEnd.status_eq_resultOf (h : AccessEnd s t) : ∃ ws, ws.length ≤ 11 ∧ Drawn s.env t.env ws ∧
    ∀ xs, t.status = some (resultOf s.latches s.cfg.ackSample (ws.map s.cfg.sdi ++ xs)) := by
  cases h with
  | busy h0 hd => exact ⟨_, by simp, hd.drawn, fun xs => by simp [hd.status, resultOf, h0]⟩
  | unsupported h0 hz hd =>
    exact ⟨_, by simp, hd.drawn, fun xs => by simp [hd.status, resultOf, State.latches, h0, hz]⟩
  | addressRefused h0 hz h1 hd =>
    exact ⟨_, by simp, hd.drawn, fun xs => by simp [hd.status, resultOf, State.latches, h0, hz, h1]⟩
  | byteWritten h0 hz hw h1 hd =>
    exact ⟨_, by simp, hd.drawn, fun xs => by
      simp [hd.status, resultOf, State.latches, h0, hz, hw, h1, sizeUnsupported_sizeByte, sizeByte_ne_sizeByteData]⟩
  | commandRefused h0 hz hw h1 h2 hd =>
    exact ⟨_, by simp, hd.drawn, fun xs => by
      simp [hd.status, resultOf, State.latches, h0, hz, hw, h1, h2, sizeUnsupported_sizeByteData]⟩
  | dataWritten h0 hz hw h1 h2 hd =>
    exact ⟨_, by simp, hd.drawn, fun xs => by
      simp [hd.status, resultOf, State.latches, h0, hz, hw, h1, h2, sizeUnsupported_sizeByteData]⟩
  | byteRead h0 hz hr h1 hd =>
    exact ⟨_, by simp [RxDraws.list], hd.drawn, fun xs => by
      simp [hd.status, resultOf, State.latches, h0, hz, hr, h1, RxDraws.list, byteOf_draws]⟩

/-- A request with at least eleven answers scripted ends in the result that the script's samples give. -/
theorem exec_request_scripted (hr : i.isRequest = true) (hp : s.phase = .idle) (hl : 11 ≤ s.env.length) :
    ∃ t, exec i s = .next t ∧
      t.status = some (resultOf (requestFields i) s.cfg.ackSample (s.env.map s.cfg.sdi)) := by
  obtain ⟨t, hnext, h⟩ := exec_request_end hr hp
  obtain ⟨ws, hws, hdrawn, hstatus⟩ := h.status_eq_resultOf
  have henv : s.env = ws ++ t.env := drawn_scripted hdrawn (hws.trans hl)
  refine ⟨t, hnext, ?_⟩
  rw [henv, List.map_append]
  exact hstatus _

/-! ### The table, by the fields of the request -/

/-- The table of R103 by the fields a request carries: a supported size excludes `UNSUPPORTED`, an unsupported one all
that comes after START, and the direction chooses between the results of a write and those of a read. -/
def FieldsAllow (l : Latches) : Result → Prop
  | .fail .busBusy => True
  | .fail .unsupported => sizeUnsupported l.size = true
  | .fail .noAckAddress => sizeUnsupported l.size = false
  | .okWrite | .fail .noAckData => sizeUnsupported l.size = false ∧ l.dir = .write
  | .okRead _ | .fail .noAckRead => sizeUnsupported l.size = false ∧ l.dir = .read

/-- Each row of the table is the row of the fields its operation stands for. R45, R103. -/
theorem mayEndIn_iff (hr : i.isRequest = true) (hf : i.wf = true) :
    mayEndIn i r = true ↔ FieldsAllow (requestFields i) r := by
  cases i with
  | wrb | wrbd | rdb | rdbd =>
    rcases r with b | _ | (_ | _ | _ | _ | _) <;>
      simp [mayEndIn, FieldsAllow, requestFields, sizeUnsupported_sizeByte, sizeUnsupported_sizeByteData]
  | unsup size =>
    have hz : sizeUnsupported size = true := hf
    rcases r with b | _ | (_ | _ | _ | _ | _) <;> simp [mayEndIn, FieldsAllow, requestFields, hz]
  | _ => cases hr

/-- Whatever the samples, the result is one the fields allow. -/
theorem fieldsAllow_resultOf (l : Latches) (ack : Bool) (xs : List Bool) : FieldsAllow l (resultOf l ack xs) := by
  dsimp only [resultOf]
  split
  case isTrue => trivial
  case isFalse =>
    split
    case isTrue hz => exact hz
    case isFalse hz =>
      have hz := Bool.eq_false_of_not_eq_true hz
      split
      case isTrue => exact hz
      case isFalse =>
        cases hd : l.dir with
        | read => dsimp only; split_ifs <;> exact ⟨hz, hd⟩
        | write => dsimp only; split_ifs <;> exact ⟨hz, hd⟩

/-! ### Samples for every entry of the table -/

/-- Eleven samples on which a request that the result is allowed to ends in it, when `ack` acknowledges. -/
def samplesFor (ack : Bool) : Result → List Bool
  | .fail .busBusy => List.replicate 11 false
  | .fail .unsupported => List.replicate 11 true
  | .fail .noAckAddress => true :: List.replicate 10 (!ack)
  | .fail .noAckData | .fail .noAckRead => [true, ack] ++ List.replicate 9 (!ack)
  | .okWrite => true :: List.replicate 10 ack
  | .okRead b => [true, ack] ++ [7, 6, 5, 4, 3, 2, 1, 0].map b.getLsbD ++ [ack]

theorem length_samplesFor (ack : Bool) (r : Result) : (samplesFor ack r).length = 11 := by
  rcases r with b | _ | c
  · rfl
  · rfl
  · cases c <;> rfl

theorem resultOf_samplesFor (h : FieldsAllow l r) : resultOf l ack (samplesFor ack r) = r := by
  rcases r with b | _ | c
  · obtain ⟨hz, hd⟩ := h
    simp [resultOf, samplesFor, hz, hd, byteOf_bits]
  · obtain ⟨hz, hd⟩ := h
    simp [resultOf, samplesFor, hz, hd]
  · cases c with
    | busBusy => simp [resultOf, samplesFor]
    | unsupported =>
      have hz : sizeUnsupported l.size = true := h
      simp [resultOf, samplesFor, hz]
    | noAckAddress =>
      have hz : sizeUnsupported l.size = false := h
      simp [resultOf, samplesFor, hz]
    | noAckData | noAckRead =>
      obtain ⟨hz, hd⟩ := h
      simp [resultOf, samplesFor, hz, hd]

/-- A word of equal bits is sampled as that bit, wherever the data-in bit stands. R62. -/
theorem sdi_fill (p : Params) (b : Bool) : p.sdi (BitVec.fill 32 b) = b := by
  rw [Params.sdi_eq_getLsbD]
  simp

/-- Eleven answers of the environment that are sampled as `samplesFor ack r`. -/
def answersFor (ack : Bool) (r : Result) : List Word := (samplesFor ack r).map (BitVec.fill 32)

theorem length_answersFor (ack : Bool) (r : Result) : (answersFor ack r).length = 11 := by
  rw [answersFor, List.length_map, length_samplesFor]

theorem map_sdi_answersFor (p : Params) (ack : Bool) (r : Result) : (answersFor ack r).map p.sdi = samplesFor ack r := by
  simp [answersFor, Function.comp_def, sdi_fill]

/-! ### The statements -/

/-- Settles O35: the result is computed from the fields and the samples, and every value of that function is in the
table. -/
theorem resultsStayInTheirTable : Obligations.ResultsStayInTheirTable := by
  intro s i hr hf hp
  obtain ⟨t, hnext, h⟩ := exec_request_end hr hp
  obtain ⟨ws, -, -, hstatus⟩ := h.status_eq_resultOf
  exact ⟨t, _, hnext, hstatus [], (mayEndIn_iff hr hf).mpr (fieldsAllow_resultOf ..)⟩

/-- Settles O36: the answers are words sampled as the samples for the result. -/
theorem everyResultOfTheTableOccurs : Obligations.EveryResultOfTheTableOccurs := by
  intro s i r hr hf hp hmay
  obtain ⟨t, hnext, hstatus⟩ := exec_request_scripted (s := { s with env := answersFor s.cfg.ackSample r }) hr hp
    (length_answersFor ..).ge
  rw [map_sdi_answersFor, resultOf_samplesFor ((mayEndIn_iff hr hf).mp hmay)] at hstatus
  exact ⟨_, t, hnext, hstatus⟩

/-- Settles O37: both results are the same function of the same samples. -/
theorem resultDependsOnSamplesOnly : Obligations.ResultDependsOnSamplesOnly := by
  intro s s' i hr _ hp hp' hl hl' hack hsamples
  obtain ⟨t, hnext, hstatus⟩ := exec_request_scripted hr hp hl
  obtain ⟨t', hnext', hstatus'⟩ := exec_request_scripted hr hp' (hl.trans_eq hl'.symm)
  refine ⟨t, t', hnext, hnext', ?_⟩
  rw [hstatus, hstatus', hack, hsamples]

/-- Settles O12: the step's branch for an empty port. -/
theorem idleDoesNothingWithoutARequest : Obligations.IdleDoesNothingWithoutARequest := by
  intro s hp hin
  simp [step, hp, hin]

end Sys2Proof.Machine

/-! SUPPORT. What reset leaves, and what the first request after it does first (spec/70_reset_and_hazards.md R116,
R117): the lines are high, the shadow is `SHADOW_INIT`, and the write of the bus check is the first one to the control
register. -/

namespace Sys2Proof.Machine

/-! ### Reset -/

/-- Both line bits of `SHADOW_INIT` are 1. R5, R117. -/
theorem resetWith_idle (p : Params) : Idle (State.resetWith p) := ⟨rfl, p.clock_on, p.data_on⟩

/-- A write to the initialisation register is none to the control register. R5, R12. -/
theorem numWrites_initWrite (p : Params) (v : Word) : numWrites p [.write p.initOffset v] = 0 := by
  simp [numWrites, p.offsets_differ]

/-- Settles O45: the fields are those of `State.resetWith`, and its one event is a write at the other offset. -/
theorem resetLeavesTheIdleState : Obligations.ResetLeavesTheIdleState := fun p =>
  ⟨rfl, rfl, resetWith_idle p, rfl, rfl, numWrites_initWrite p p.initValue, rfl, rfl⟩

/-- Settles O54: no word waits, and `IDLE` asks for both lines high. -/
theorem resetIsInOrder : Obligations.ResetIsInOrder :=
  have ⟨_, hclk, hsdo⟩ := resetWith_idle Config.params
  ⟨nofun, eventsOf_pos .idle, hclk, hsdo⟩

/-! ### The first request -/

/-- `SHADOW_INIT` is its own word with both lines high. R5. -/
theorem wr_shadowInit (p : Params) : p.wr p.shadowInit true true = .write p.ctrlOffset p.shadowInit :=
  congrArg (Event.write p.ctrlOffset) (resetWith_enableBitsKept p).withLines_high

/-- On lines left high the bus check writes the shadow with both lines high, whatever follows it. R80, R116. -/
theorem AccessEnd.trace_of_idle {s t : State} (h : AccessEnd s t) (hclk : s.clk = true) : ∃ w tr,
    t.trace = s.trace ++ s.cfg.wr s.shadow true true :: s.cfg.rd w :: tr := by
  obtain ⟨w, _, _, tr, _, hd, -⟩ := h.sampled
  obtain ⟨-, -, -, -, -, htrace, -⟩ := hd.ended
  rw [hclk] at htrace
  exact ⟨w, tr, htrace⟩

/-- Settles O46: the bus check of any request comes first, and finds the shadow as reset left it. -/
theorem firstRequestCommitsShadowInit : Obligations.FirstRequestCommitsShadowInit := by
  intro p i env hr _
  have ⟨hp, hclk, _⟩ := resetWith_idle p
  obtain ⟨t, hnext, h⟩ := exec_request_end (s := { State.resetWith p with env := env }) hr hp
  obtain ⟨w, tr, htrace⟩ := h.trace_of_idle hclk
  refine ⟨t, w, tr, hnext, ?_⟩
  rw [← wr_shadowInit]
  exact htrace

end Sys2Proof.Machine

/-! SUPPORT. How many events a transaction in flight still has at most (spec/10_state.md R19,
spec/70_reset_and_hazards.md R130): every event makes the number smaller, and at the first event of `BUSCHK` it is
95. -/

namespace Sys2Proof.Machine

variable {s t : State}

/-! ### The bound -/

/-- The most events that follow the last one of a phase: STOP has 5, an acknowledge slot 4, a bit sent 3, a bit
received 4 after READBYTE's opening write, and the longest way on from the address byte is through a command byte and a
data byte. R66 to R73, R90. -/
def eventsAfter : Phase → Nat
  | .idle | .stop _ => 0
  | .rx .ack | .tx .data .ack => 5
  | .rx (.bit i) => 4 * i + 9
  | .tx .data (.bit i) => 3 * i + 9
  | .tx .cmd .ack => 33
  | .tx .cmd (.bit i) => 3 * i + 37
  | .tx .addr .ack => 61
  | .tx .addr (.bit i) => 3 * i + 65
  | .start => 89
  | .buschk => 93

/-- The most events left of a transaction at event `k` of a phase; an event past the phase's last acts as the last. Log
entry 15. -/
def eventsLeft (p : Phase) (k : Nat) : Nat :=
  if p = .idle then 0 else eventsOf p - (k + 1) + 1 + eventsAfter p

theorem eventsLeft_of_ne {p : Phase} (h : p ≠ .idle) (k : Nat) :
    eventsLeft p k = eventsOf p - (k + 1) + 1 + eventsAfter p := if_neg h

theorem eventsOf_add_eventsAfter_le (p : Phase) : eventsOf p + eventsAfter p ≤ 95 := by
  rcases p with _ | _ | _ | ⟨which, i | _⟩ | ⟨i | _⟩ | why
  case tx.bit => cases which <;> revert i <;> decide
  case tx.ack => cases which <;> decide
  case rx.bit => revert i; decide
  case stop => cases why <;> decide
  all_goals decide

theorem eventsLeft_le (p : Phase) (k : Nat) : eventsLeft p k ≤ 95 := by
  have hpos := eventsOf_pos p
  have hmax := eventsOf_add_eventsAfter_le p
  unfold eventsLeft
  split_ifs <;> omega

/-! ### One event -/

/-- From `s` to `t` the number of events left at most became smaller. -/
abbrev LeavesFewer (s t : State) : Prop := eventsLeft t.phase t.evt < eventsLeft s.phase s.evt

/-- The next event of the same phase. R19. -/
theorem LeavesFewer.next (hp : s.phase ≠ .idle) (hphase : t.phase = s.phase) (hevt : t.evt = s.evt + 1)
    (hk : s.evt + 1 < eventsOf s.phase) : LeavesFewer s t := by
  rw [LeavesFewer, hphase, hevt, eventsLeft_of_ne hp, eventsLeft_of_ne hp]
  omega

/-- The first event of a phase that has no more events than may follow this one. R19. -/
theorem LeavesFewer.entered (hp : s.phase ≠ .idle) (hevt : t.evt = 0)
    (hq : eventsLeft t.phase 0 ≤ eventsAfter s.phase) : LeavesFewer s t := by
  rw [LeavesFewer, hevt, eventsLeft_of_ne hp]
  omega

theorem buschkEvent_leavesFewer (hp : s.phase = .buschk) : LeavesFewer s (buschkEvent s.evt s) := by
  have hne : s.phase ≠ .idle := by simp [hp]
  rcases hk : s.evt with _ | k
  · exact .next hne rfl rfl (by simp [hk, hp, eventsOf])
  · refine .entered hne ?_ ?_ <;> dsimp only [buschkEvent] <;> split_ifs <;>
      simp [hp, eventsLeft, eventsOf, eventsAfter]

theorem startEvent_leavesFewer (hp : s.phase = .start) : LeavesFewer s (startEvent s.evt s) := by
  have hne : s.phase ≠ .idle := by simp [hp]
  have hbyte : eventsLeft (.tx .addr (.bit 7)) 0 ≤ eventsAfter .start := by decide
  rcases hk : s.evt with _ | _ | _ | k
  case succ.succ.succ => exact .entered hne rfl (hp ▸ hbyte)
  all_goals exact .next hne rfl rfl (by simp [hk, hp, eventsOf])

theorem eventsLeft_tx_slotAfter (which : TxByte) (i : Fin 8) :
    eventsLeft (.tx which (slotAfter i)) 0 ≤ eventsAfter (.tx which (.bit i)) := by
  revert i
  cases which <;> decide

theorem eventsLeft_rx_slotAfter (i : Fin 8) : eventsLeft (.rx (slotAfter i)) 0 ≤ eventsAfter (.rx (.bit i)) := by
  revert i
  decide

theorem txBitEvent_leavesFewer {which : TxByte} {i : Fin 8} (hp : s.phase = .tx which (.bit i)) :
    LeavesFewer s (txBitEvent which i s.evt s) := by
  have hne : s.phase ≠ .idle := by simp [hp]
  rcases hk : s.evt with _ | _ | k
  case succ.succ => exact .entered hne rfl (hp ▸ eventsLeft_tx_slotAfter which i)
  all_goals exact .next hne rfl rfl (by simp [hk, hp, eventsOf])

theorem ackEvent_leavesFewer {after : State → State} (hne : s.phase ≠ .idle) (hn : eventsOf s.phase = 4)
    (hevt : ∀ t, (after t).evt = 0) (hq : ∀ t, eventsLeft (after t).phase 0 ≤ eventsAfter s.phase) :
    LeavesFewer s (ackEvent s.evt after s) := by
  rcases hk : s.evt with _ | _ | _ | k
  case succ.succ.succ => exact .entered hne (hevt _) (hq _)
  all_goals exact .next hne rfl rfl (by omega)

/-- Each way on from the acknowledge slot of a byte sent is no longer than the longest. R90. -/
theorem eventsLeft_afterAck (which : TxByte) (t : State) :
    eventsLeft (afterAck which t) 0 ≤ eventsAfter (.tx which .ack) := by
  cases hf : t.ackF with
  | false => cases which <;> simp [afterAck, hf, eventsLeft, eventsOf, eventsAfter]
  | true =>
    cases which with
    | addr => cases hd : t.tDir <;> simp [afterAck, hf, hd, eventsLeft, eventsOf, eventsAfter]
    | cmd => by_cases hz : t.tSize = sizeByteData <;> simp [afterAck, hf, hz, eventsLeft, eventsOf, eventsAfter]
    | data => simp [afterAck, hf, eventsLeft, eventsOf, eventsAfter]

/-- The four events of a bit of READBYTE, which begin at event `o` of its slot. R73. -/
theorem rxBitEvent_leavesFewer {i : Fin 8} {o k : Nat} (hp : s.phase = .rx (.bit i)) (hn : eventsOf s.phase = o + 4)
    (hk : s.evt = o + k) : LeavesFewer s (rxBitEvent i k s) := by
  have hne : s.phase ≠ .idle := by simp [hp]
  rcases k with _ | _ | _ | k
  case succ.succ.succ => exact .entered hne rfl (hp ▸ eventsLeft_rx_slotAfter i)
  all_goals exact .next hne rfl rfl (by omega)

theorem rxEvent_leavesFewer {i : Fin 8} (hp : s.phase = .rx (.bit i)) : LeavesFewer s (rxEvent i s.evt s) := by
  unfold rxEvent
  split_ifs with hi
  · have hn : eventsOf s.phase = 5 := by simp [hp, hi, eventsOf]
    rcases hk : s.evt with _ | k
    · exact .next (by simp [hp]) rfl rfl (by omega)
    · exact rxBitEvent_leavesFewer (o := 1) hp hn (by omega)
  · exact rxBitEvent_leavesFewer (o := 0) hp (by simp [hp, hi, eventsOf]) (by omega)

theorem stopEvent_leavesFewer {why : StopFrom} (hp : s.phase = .stop why) : LeavesFewer s (stopEvent why s.evt s) := by
  have hne : s.phase ≠ .idle := by simp [hp]
  rcases hk : s.evt with _ | _ | _ | _ | k
  case succ.succ.succ.succ => exact .entered hne rfl (Nat.zero_le _)
  all_goals exact .next hne rfl rfl (by simp [hk, hp, eventsOf])

/-- Every event of a transaction in flight brings its end nearer. R130. -/
theorem eventStep_leavesFewer (h : s.phase ≠ .idle) : LeavesFewer s (eventStep s) := by
  unfold eventStep
  split
  next hp => exact absurd hp h
  next hp => exact buschkEvent_leavesFewer hp
  next hp => exact startEvent_leavesFewer hp
  next hp => exact txBitEvent_leavesFewer hp
  next which hp =>
    exact ackEvent_leavesFewer h (by simp [hp, eventsOf]) (fun _ => rfl) fun t => hp ▸ eventsLeft_afterAck which t
  next hp => exact rxEvent_leavesFewer hp
  next hp =>
    have hstop : eventsLeft (.stop .readEnd) 0 ≤ eventsAfter (.rx .ack) := by decide
    exact ackEvent_leavesFewer h (by simp [hp, eventsOf]) (fun _ => rfl) fun _ => hp ▸ hstop
  next hp => exact stopEvent_leavesFewer hp

/-! ### Any number of events -/

/-- No more steps than there are events left reach `IDLE`. -/
theorem run_reaches_idle (s : State) : ∃ k t, k ≤ eventsLeft s.phase s.evt ∧
    Host.Core.run Sys2Proof.core k s = .next t ∧ State.phase t = .idle := by
  by_cases hp : s.phase = .idle
  · exact ⟨0, s, Nat.zero_le _, rfl, hp⟩
  · have hlt := eventStep_leavesFewer hp
    obtain ⟨k, t, hk, hrun, ht⟩ := run_reaches_idle (eventStep s)
    exact ⟨k + 1, t, by omega, (run_succ_of_step (step_inFlight hp) k).trans hrun, ht⟩
termination_by eventsLeft s.phase s.evt
decreasing_by exact hlt

/-- Settles O58: no position of the sequencer has more than 95 events left. -/
theorem everyTransactionEnds : Obligations.EveryTransactionEnds := fun s _ =>
  have ⟨k, t, hk, hrun, ht⟩ := run_reaches_idle s
  ⟨k, t, hk.trans (eventsLeft_le ..), hrun, ht⟩

end Sys2Proof.Machine

/-! SUPPORT. The data/clock rule on the wire (spec/70_reset_and_hazards.md R120, R123): the shapes of the wire trace are
those of the commanded pairs, runs of equal ones included, and they add up along the operations of a transaction. -/

namespace Sys2Proof.Machine

variable {p : Params} {base : Word}

/-! ### The wire trace and the commanded pairs -/

/-- A shape that no pair makes with itself is counted alike before and after equal neighbours are merged. R24. -/
theorem countShape_mergeAfter {f : Lines → Lines → Bool} (hf : ∀ a, f a a = false) (a : Lines) (xs : List Lines) :
    countShape f (a :: mergeAfter a xs) = countShape f (a :: xs) := by
  induction xs generalizing a with
  | nil => rfl
  | cons x xs ih =>
    by_cases hx : x = a
    · simp [mergeAfter, countShape, hx, hf, ih]
    · simp [mergeAfter, countShape, hx, ih]

/-- A property every pair has with itself holds alike before and after equal neighbours are merged. R24. -/
theorem allSteps_mergeAfter {f : Lines → Lines → Bool} (hf : ∀ a, f a a = true) (a : Lines) (xs : List Lines) :
    allSteps f (a :: mergeAfter a xs) = allSteps f (a :: xs) := by
  induction xs generalizing a with
  | nil => rfl
  | cons x xs ih =>
    by_cases hx : x = a
    · simp [mergeAfter, allSteps, hx, hf, ih]
    · simp [mergeAfter, allSteps, hx, ih]

/-! ### What a trace does to the lines -/

/-- The writes of the trace `tr`, with the lines at `a` before, leave the lines at `b`; they make `starts` START-shaped
and `stops` STOP-shaped transitions, and every change of the data bit is one that R120 allows. -/
structure Drives (p : Params) (a : Lines) (tr : List Event) (b : Lines) (starts stops : Nat) : Prop where
  last : (tr.filterMap (linesOf p)).getLastD a = b
  starts : countShape startShaped (a :: tr.filterMap (linesOf p)) = starts
  stops : countShape stopShaped (a :: tr.filterMap (linesOf p)) = stops
  allowed : allSteps dataMoveAllowed (a :: tr.filterMap (linesOf p)) = true

theorem getLastD_append (a : Lines) (xs ys : List Lines) : (xs ++ ys).getLastD a = ys.getLastD (xs.getLastD a) := by
  simp [List.getLast?_append, Option.getD_or]

theorem countShape_append (f : Lines → Lines → Bool) (a : Lines) (xs ys : List Lines) :
    countShape f (a :: (xs ++ ys)) = countShape f (a :: xs) + countShape f (xs.getLastD a :: ys) := by
  induction xs generalizing a with
  | nil => exact (Nat.zero_add _).symm
  | cons x xs ih => rw [List.cons_append, countShape, ih, countShape, List.getLastD_cons, Nat.add_assoc]

theorem allSteps_append (f : Lines → Lines → Bool) (a : Lines) (xs ys : List Lines) :
    allSteps f (a :: (xs ++ ys)) = (allSteps f (a :: xs) && allSteps f (xs.getLastD a :: ys)) := by
  induction xs generalizing a with
  | nil => exact (Bool.true_and _).symm
  | cons x xs ih => rw [List.cons_append, allSteps, ih, allSteps, List.getLastD_cons, Bool.and_assoc]

/-- One trace after another: the shapes add up. -/
theorem Drives.append {a b c : Lines} {tr tr' : List Event} {m n m' n' : Nat} (h : Drives p a tr b m n)
    (h' : Drives p b tr' c m' n') : Drives p a (tr ++ tr') c (m + m') (n + n') := by
  constructor <;> rw [List.filterMap_append]
  · rw [getLastD_append, h.last, h'.last]
  · rw [countShape_append, h.last, h.starts, h'.starts]
  · rw [countShape_append, h.last, h.stops, h'.stops]
  · rw [allSteps_append, h.last, h.allowed, h'.allowed]; rfl

/-- The wire trace of a trace whose first write commands the lines as they are shows what it does to them. R24. -/
theorem Drives.wireTrace_shapes {a b : Lines} {tr : List Event} {m n : Nat} (h : Drives p a tr b m n)
    (ha : (tr.filterMap (linesOf p)).head? = some a) :
    countShape startShaped (wireTrace p tr) = m ∧ countShape stopShaped (wireTrace p tr) = n ∧
      allSteps dataMoveAllowed (wireTrace p tr) = true := by
  obtain ⟨-, hstarts, hstops, hallowed⟩ := h
  obtain ⟨xs, hxs⟩ := List.head?_eq_some_iff.mp ha
  have hstart : ∀ x, startShaped x x = false := by decide
  have hstop : ∀ x, stopShaped x x = false := by decide
  have hmove : ∀ x, dataMoveAllowed x x = true := by decide
  simp only [hxs, countShape, allSteps, hstart, hstop, hmove] at hstarts hstops hallowed
  simp only [wireTrace, hxs, countShape_mergeAfter hstart, countShape_mergeAfter hstop,
    allSteps_mergeAfter hmove]
  exact ⟨by simpa using hstarts, by simpa using hstops, by simpa using hallowed⟩

/-! ### The operations of the engine -/

theorem sampleTrace_drives (w : Word) : Drives p (true, true) (sampleTrace p base true w) (true, true) 0 0 := by
  constructor <;> rw [lines_sample] <;> rfl

theorem startTrace_drives : Drives p (true, true) (startTrace p base true true) (true, false) 1 0 := by
  constructor <;> rw [lines_start] <;> rfl

theorem stopTrace_drives : Drives p (false, true) (stopTrace p base false) (true, true) 0 1 := by
  constructor <;> rw [lines_stop] <;> rfl

theorem readTrace_drives (r : RxDraws) : Drives p (false, true) (readTrace p base true r) (false, true) 0 0 := by
  constructor <;> rw [lines_read] <;> rfl

theorem lines_bit (c b : Bool) : (bitTrace p base c b).filterMap (linesOf p) = bitLines c b := by
  simp [bitTrace, bitLines]

/-- A bit sent with the clock low moves the data with the clock low only. R71, R120. -/
theorem bitTrace_drives (d b : Bool) : Drives p (false, d) (bitTrace p base false b) (false, b) 0 0 := by
  constructor <;> rw [lines_bit] <;> revert d b <;> decide

/-- The first bit after START finds the clock high and the data low: a 1 is STOP-shaped. R72. -/
theorem firstBitTrace_drives (b : Bool) :
    Drives p (true, false) (bitTrace p base true b) (false, b) 0 (if b then 1 else 0) := by
  constructor <;> rw [lines_bit] <;> revert b <;> decide

/-- An acknowledge slot after a bit 0 raises both lines at once. R123. -/
theorem ackTrace_drives (d : Bool) (w : Word) : Drives p (false, d) (ackTrace p base w) (false, true) 0 0 := by
  have hlines : (ackTrace p base w).filterMap (linesOf p) = [(true, true), (true, true), (false, true)] := by
    simp [ackTrace, List.filterMap_cons]
  constructor <;> rw [hlines] <;> revert d <;> decide

/-- After its first bit a byte sent makes neither shape. R71, R72. -/
theorem sendTrace_drives_of_firstBit {a : Lines} {c : Bool} {m n : Nat} (v : Byte) (w : Word)
    (h : Drives p a (bitTrace p base c (v.getLsbD 7)) (false, v.getLsbD 7) m n) :
    Drives p a (sendTrace p base c v w) (false, true) m n :=
  h.append (bitTrace_drives ..) |>.append (bitTrace_drives ..) |>.append (bitTrace_drives ..)
    |>.append (bitTrace_drives ..) |>.append (bitTrace_drives ..) |>.append (bitTrace_drives ..)
    |>.append (bitTrace_drives ..) |>.append (ackTrace_drives ..)

theorem sendTrace_drives (v : Byte) (w : Word) :
    Drives p (false, true) (sendTrace p base false v w) (false, true) 0 0 :=
  sendTrace_drives_of_firstBit v w (bitTrace_drives ..)

/-! ### A transaction -/

/-- The first bit of the address byte is the address's highest. R49. -/
theorem getLsbD_addressByte_seven (a : SlaveAddr) (d : Dir) :
    (addressByte a d).getLsbD 7 = decide (0x40 ≤ a.toNat) := by
  rw [getLsbD_addressByte_succ a d (k := 6) (by decide)]
  exact (BitVec.msb_eq_getLsbD_last a).symm.trans (BitVec.msb_eq_decide a)

/-- Up to the acknowledge of the address byte: START's shape, and a STOP shape where the address begins with a 1.
R72. -/
theorem headTrace_drives {s : State} (hclk : s.clk = true) (a : SlaveAddr) (d : Dir) (w0 w1 : Word) :
    Drives s.cfg (true, true) (headTrace s a d w0 w1) (false, true) 1 (if 0x40 ≤ a.toNat then 1 else 0) := by
  have hstops : (if 0x40 ≤ a.toNat then 1 else 0) = 0 + 0 + if (addressByte a d).getLsbD 7 then 1 else 0 := by
    simp only [getLsbD_addressByte_seven, decide_eq_true_eq, Nat.zero_add]
  rw [headTrace, hclk, hstops]
  exact ((sampleTrace_drives w0).append startTrace_drives).append
    (sendTrace_drives_of_firstBit _ w1 (firstBitTrace_drives _))

/-- What R120 says of the wire trace of a request to the address `a` that ends in `r`. -/
def MovesData (p : Params) (a : SlaveAddr) (r : Result) (tr : List Event) : Prop :=
  countShape startShaped (wireTrace p tr) = (if startPerformed r then 1 else 0) ∧
  countShape stopShaped (wireTrace p tr) = (if startPerformed r then (if 0x40 ≤ a.toNat then 2 else 1) else 0) ∧
  allSteps dataMoveAllowed (wireTrace p tr) = true

/-- A request that ends at the bus check leaves the lines where they are. R80. -/
theorem movesData_sampleTrace {a : SlaveAddr} {r : Result} {c : Bool} {w : Word} (hr : startPerformed r = false) :
    MovesData p a r (sampleTrace p base c w) := by
  simp only [MovesData, wireTrace, lines_sample, hr]
  exact ⟨rfl, rfl, rfl⟩

/-- The address byte, bytes that make neither shape, and STOP. R120. -/
theorem Drives.movesData {s : State} {a : SlaveAddr} {d : Dir} {w0 w1 : Word} {r : Result} {tr : List Event}
    (h : Drives s.cfg (false, true) tr (false, true) 0 0) (hclk : s.clk = true) (hr : startPerformed r = true) :
    MovesData s.cfg a r (headTrace s a d w0 w1 ++ tr ++ stopTrace s.cfg s.shadow false) := by
  have hdrives := ((headTrace_drives hclk a d w0 w1).append h).append (stopTrace_drives (base := s.shadow))
  obtain ⟨hstarts, hstops, hallowed⟩ := hdrives.wireTrace_shapes (by simp [headTrace, lines_sample, hclk])
  refine ⟨by rw [hstarts, hr]; rfl, ?_, hallowed⟩
  rw [hstops, if_pos hr]
  split_ifs <;> rfl

theorem Delivered.movesData {s t : State} {r : Result} {c : Bool} {tr : List Event} {ws : List Word} {a : SlaveAddr}
    (h : Delivered s t r c tr ws) (hm : MovesData s.cfg a r tr) :
    ∃ tr r, t.trace = s.trace ++ tr ∧ t.status = some r ∧ MovesData s.cfg a r tr := by
  obtain ⟨-, -, hstatus, -, -, htrace, -⟩ := h.ended
  exact ⟨tr, r, htrace, hstatus, hm⟩

/-- Each end's trace is the bus check alone, or ends with STOP after bytes that make neither shape. R120. -/
theorem AccessEnd.movesData {s t : State} (h : AccessEnd s t) (hclk : s.clk = true) :
    ∃ tr r, t.trace = s.trace ++ tr ∧ t.status = some r ∧ MovesData s.cfg s.tAddr r tr := by
  have hsend (v : Byte) (w : Word) := sendTrace_drives (p := s.cfg) (base := s.shadow) v w
  cases h with
  | busy _ hd | unsupported _ _ hd => exact hd.movesData (movesData_sampleTrace rfl)
  | addressRefused _ _ _ hd =>
    have hnone : Drives s.cfg (false, true) [] (false, true) 0 0 := ⟨rfl, rfl, rfl, rfl⟩
    exact hd.movesData (by simpa using hnone.movesData hclk rfl)
  | byteWritten _ _ _ _ hd => exact hd.movesData ((hsend ..).movesData hclk (by split_ifs <;> rfl))
  | commandRefused _ _ _ _ _ hd => exact hd.movesData ((hsend ..).movesData hclk rfl)
  | dataWritten _ _ _ _ _ hd =>
    rw [List.append_assoc (headTrace ..)] at hd
    exact hd.movesData (((hsend ..).append (hsend ..)).movesData hclk (by split_ifs <;> rfl))
  | byteRead _ _ _ _ hd => exact hd.movesData ((readTrace_drives _).movesData hclk (by split_ifs <;> rfl))

theorem addr_requestFields (i : Instr) : (requestFields i).addr = reqAddrOf i := by cases i <;> rfl

/-- Settles O42: from idle lines every end of `access` moves the data as R120 says, for the address it latched. -/
theorem dataMovesOnlyAsTheSequencesAllow : Obligations.DataMovesOnlyAsTheSequencesAllow := by
  rintro s i hr - ⟨hp, hclk, -⟩
  obtain ⟨t, hnext, h⟩ := exec_request_end hr hp
  obtain ⟨tr, r, htrace, hstatus, hmoves⟩ := h.movesData hclk
  rw [accept_tAddr, addr_requestFields] at hmoves
  exact ⟨t, tr, r, hnext, htrace, hstatus, hmoves⟩

end Sys2Proof.Machine
